-- ==== Sys2Proof/Word.lean ====
section
/-! DEFINITION. The KD-412's codes, levels and station codes, and the types that a command's operands have
(spec/00_scope.md section 3; R3, R40, R70, R73, R182). -/

namespace Sys2Proof

/-- A five-unit code, 0 to 31; the first element on the line is the least significant bit (section 3.1). -/
abbrev Code := BitVec 5

/-- A byte of the configuration memory or of the service port. -/
abbrev Byte := BitVec 8

/-- The three line levels (section 3.4). -/
inductive Level where
  | p | z | n
  deriving DecidableEq, Repr

/-- The polarity of a mark. -/
inductive Polarity where
  | pos | neg
  deriving DecidableEq, Repr

def Polarity.flip : Polarity → Polarity
  | .pos => .neg
  | .neg => .pos

def Polarity.level : Polarity → Level
  | .pos => .p
  | .neg => .n

/-- Low or high case. -/
inductive Case where
  | low | high
  deriving DecidableEq, Repr

/-- A station code c1/c2 (section 3.2). -/
structure StationCode where
  c1 : Code
  c2 : Code
  deriving DecidableEq, Repr

/-- 31/31, the all-stations code. -/
def StationCode.all : StationCode := ⟨31, 31⟩

/-- 0/0, reserved. -/
def StationCode.zero : StationCode := ⟨0, 0⟩

/-- Neither element is 0. -/
def StationCode.noZero (c : StationCode) : Bool := c.c1 != 0 && c.c2 != 0

/-- The straps (R182). -/
structure Straps where
  rate : BitVec 3
  stop : BitVec 2
  margin : BitVec 2
  width : BitVec 2
  anl : Bool
  usos : Bool
  monitor : Bool
  keepPrinted : Bool
  verify : Bool
  svc : Bool
  deriving DecidableEq, Repr

/-- Positions of the MODE switch. -/
inductive ModePos where
  | line | loc | prepare
  deriving DecidableEq, Repr

/-- Positions of the PUNCH switch. -/
inductive PunchPos where
  | off | auto | on
  deriving DecidableEq, Repr

/-- What the two MODE inputs show: one of the three positions, or the fourth combination (R73). -/
inductive ModeIn where
  | pos (m : ModePos)
  | fourth
  deriving DecidableEq, Repr

/-- What the two PUNCH inputs show (R73). -/
inductive PunchIn where
  | pos (p : PunchPos)
  | fourth
  deriving DecidableEq, Repr

/-- The six function keys (R73). -/
inductive FnKey where
  | call | collect | endKey | breakKey | hereIs | cancel
  deriving DecidableEq, Repr

/-- A key of the keyboard: a matrix position or a function key. -/
inductive KeyId where
  | matrix (p : BitVec 6)
  | fn (f : FnKey)
  deriving DecidableEq, Repr

/-- The two quality integrators (R32). -/
inductive Integ where
  | fine | coarse
  deriving DecidableEq, Repr

/-- The inputs that stand at one housekeeping tick: the columns of the driven row, the function keys and the
switches (read at the tick of row 7, R70), and the mechanisms' sensing inputs (R105, R108, R123). -/
structure TickInputs where
  cols : BitVec 8
  call : Bool
  collect : Bool
  endKey : Bool
  breakKey : Bool
  hereIs : Bool
  cancel : Bool
  mode : ModeIn
  punch : PunchIn
  attended : Bool
  paperOut : Bool
  fault : Bool
  atSpeed : Bool
  tapeLow : Bool
  tapeOut : Bool
  deriving DecidableEq, Repr

end Sys2Proof
end

