-- ==== Sys2Proof/Syntax.lean ====
section
/-! DEFINITION. The commands of the KD-412: one constructor per row of spec/opcode_table.json, in its order. -/

namespace Sys2Proof

/-- A command. A key, switch, timer or condition row is the step in which that event comes about. -/
inductive Instr where
  /-- POWER_ON (R188): Power comes up: every block takes its power-on reset values, the reset cause becomes POWER, and the log and store are cleared. -/
  | powerOn
  /-- RESET_PIN_ASSERTED (R17): The RESET pin is asserted: drives go inactive, every block takes its reset values, and the cause becomes PIN. -/
  | resetPinAsserted
  /-- RESET_RELEASE (R187): Reset is released: straps are sampled, the SVC latch is taken at power-on, the timebase and tick start, and the image read begins. -/
  | resetRelease (st : Straps)
  /-- CONFIG_READ_DONE (R184): A configuration memory read attempt ends acknowledged or not; on the final result the image is judged, the tables are built, the generator is seeded and the homing is formed. -/
  | configReadDone (image : Option (Vector Byte 65))
  /-- CONFIG_RETRY_TIMEOUT (R184): The 16-tick wait after an unacknowledged read attempt ends, and the Loader tries again. -/
  | configRetryTimeout
  /-- CONFIG_FLASH_TOGGLE (R2): With RATE invalid, the 512-tick CONFIG lamp flash period ends and the lamp toggles. -/
  | configFlashToggle
  /-- SAMPLE (R3): One line sample is read; the quiet, hold and REST counts run, the echo is compared, and the Framer, Gauge and Listener act on the level. -/
  | sample (rxP rxN : Bool)
  /-- REST_RECOGNISED (R8): The quiet counter reaches 768: REST is recognised, the Framer reports SENDING-END, and calls, obligations and collections act. -/
  | restRecognised
  /-- BREAK_SEEN (R9): The hold counter reaches 512, raising BREAK-SEEN to the Framer, Listener, Sender, Call Tracker and link matrix. -/
  | breakSeen
  /-- BURST_END (R13): The 1024th sample of a break burst ends, and the LIU releases the drivers and enters OFF. -/
  | burstEnd
  /-- LINE_FAULT_ASSERTED (R14): LINE FAULT is first asserted: the latch is set, the sending or burst is ended, the Sender and Listener are told, and LOCAL LOOP begins. -/
  | lineFaultAsserted
  /-- LINE_FAULT_CLEARED (R15): LINE FAULT is no longer asserted, and the LIU reads the comparators and runs its counters again. -/
  | lineFaultCleared
  /-- LOCAL_LOOP_ENDED (R15): The REST element count reaches 24 with the latch set: the latch clears and a pending call request is offered to the slot. -/
  | localLoopEnded
  /-- ELEMENT_TICK (R34): An element tick advances each quality integrator's divider and age. -/
  | elementTick
  /-- INTEGRATOR_DECREMENT (R34): An integrator's divider reaches its decrement interval, and the counter falls by one. -/
  | integratorDecrement (w : Integ)
  /-- INTEGRATOR_FLAG_CHANGE (R35): An integrator's age reaches 8192 and its flag sets or clears, which may change LQ. -/
  | integratorFlagChange
  /-- ERROR_LAMP_TIMEOUT (R31): 102 ticks pass after the last error event, and the ERROR lamp goes dark. -/
  | errorLampTimeout
  /-- REFUSAL_POINT (R151): The 4th reply-window element is counted, and an AWAITED CALLED station may refuse with a burst. -/
  | refusalPoint
  /-- WINDOW_END (R152): The 24th window element ends the window: the disposition is decided, the text start is reported and the punch may be claimed. -/
  | windowEnd
  /-- HOLD_LIMIT_EXPIRED (R63): The REST element count reaches 24 in HOLDING, and the call ends with outcome NOT-SERVED, COMPLETE or INCOMPLETE. -/
  | holdLimitExpired
  /-- SLOT_EXAMINE (R42): The empty job slot takes the highest-priority ready job (obligation, call request or outbound entry) into WAIT-GUARD. -/
  | slotExamine
  /-- GUARD_REACHED (R44): The REST element count reaches a job's guard, and the Sender asks the LIU to start a sending. -/
  | guardReached
  /-- ELEMENT_END (R49): An element ends in SENDING, and the Sender hands the next lead-in, header, window, text, hold, stop or end. -/
  | elementEnd
  /-- HOLD_TIMEOUT (R49): 1500 consecutive hold elements in TEXT mark the call timed out, and the Sender enters STOPPING. -/
  | holdTimeout
  /-- NO_ANSWER_BACK (R51): The count passes 8 in YIELD with no sending begun, and the call is marked no answer-back. -/
  | noAnswerBack
  /-- OBLIGATION_LAPSE (R44): An ANSWER or first DELIVER not started by count 8 lapses, with JOB-END LAPSED. -/
  | obligationLapse
  /-- WATCH_LINE_END (R53): 768 samples pass after a collision stop with the line busy, and the stop is classified. -/
  | watchLineEnd
  /-- SCAN_ROW (R70): A housekeeping tick drives the next keyboard row, reads its columns (plus function keys and switches at row 7) and reports activity. -/
  | scanRow (inp : TickInputs)
  /-- KEY_DOWN (R77): A matrix key's fourth closed reading gives a down event, which acts as a text key, destination element or access code, subject to lockout. -/
  | keyDown (p : BitVec 6)
  /-- KEY_UP (R71): A key's fourth open reading gives an up event, which affects only the lockout. -/
  | keyUp (k : KeyId)
  /-- CALL (R78): The CALL key starts a LINE or PREPARE set-up sequence, or is a sequence error. -/
  | callKey
  /-- COLLECT (R80): The COLLECT key starts a POLL set-up sequence in MODE LINE, or is a sequence error. -/
  | collectKey
  /-- END (R78): The END key makes an END-MARKER and returns the set-up to READY. -/
  | endKey
  /-- BREAK (R67): The BREAK key ends the own sending or the yield, or requests a break burst. -/
  | breakKey
  /-- HERE_IS (R85): The HERE-IS key makes twenty answer-back entries at once, or is refused. -/
  | hereIs
  /-- CANCEL (R83): The CANCEL key removes the current mode's entries, resets the set-up, clears SEQ and withdraws or closes the call. -/
  | cancelKey
  /-- MODE_CHANGE (R84): The MODE switch takes a new debounced position, acting on the set-up and releasing KEYBOARD punch ownership. -/
  | modeChange
  /-- PUNCH_SWITCH_CHANGE (R121): The PUNCH switch takes a new debounced position; a move to OFF stops the punch at once. -/
  | punchSwitchChange
  /-- ATTENDED_CHANGE (R73): The ATTENDED switch takes a new debounced position, which is reported to the Answering Unit, Print Controller and link matrix. -/
  | attendedChange
  /-- LOCK_TIMER_EXPIRED (R75): The 512-tick LOCK refusal timer ends. -/
  | lockTimerExpired
  /-- PREPARE_ENTRY_TAKEN (R81): The prepare writer takes the PREPARE entry at the head and writes its cells, or closes the entry at an END-MARKER. -/
  | prepareEntryTaken
  /-- WATCH_ENTERED (R168): The watch count reaches 61,440 ticks: WATCH is lit and the scan slows. -/
  | watchEntered
  /-- LOCAL_GRANT (R94): LOCAL is granted the enqueue right once the right is free, the print list is empty, nothing is awaited and a LOCAL entry is at the head. -/
  | localGrant
  /-- LOCAL_ENTRY_TAKEN (R94): The LOCAL holder takes the head entry into the print queue when room allows. -/
  | localEntryTaken
  /-- LOCAL_IDLE_TIMEOUT (R94): The LOCAL idle count reaches 2048, and the right becomes FREE. -/
  | localIdleTimeout
  /-- DRAIN_GRANT (R95): DRAIN is granted for the head of the print list, joining a MESSAGE-START or resuming. -/
  | drainGrant
  /-- DRAIN_READ (R96): DRAIN reads the next cell into the queue, or joins the MESSAGE-END at a closed entry's end. -/
  | drainRead
  /-- FORM_COMMAND (R101): A free stage takes the next command formed from a homing, the ring request or the head queue item. -/
  | formCommand
  /-- PRINT_DONE (R103): The mechanism's DONE completes the active command, moves the next stage up and judges completion. -/
  | printDone
  /-- PAPER_OUT (R105): The debounced PAPER OUT becomes asserted: the event is raised, the status is set and readiness changes. -/
  | paperOut
  /-- PAPER_BACK (R105): The debounced PAPER OUT clears: the event is raised and printing resumes. -/
  | paperBack
  /-- FAULT_ASSERTED (R107): The debounced FAULT becomes asserted: stages are abandoned and the drain is rolled back. -/
  | faultAsserted
  /-- FAULT_CLEARED (R107): The debounced FAULT clears, and the recovery homing is formed. -/
  | faultCleared
  /-- AT_SPEED (R108): AT-SPEED is read in STARTING, and the motor becomes RUNNING. -/
  | atSpeed
  /-- AT_SPEED_LOST (R108): AT-SPEED is lost while RUNNING: MOTOR-FAULT, the stages are abandoned and the drain rolled back. -/
  | atSpeedLost
  /-- MOTOR_START_TIMEOUT (R108): The start count reaches 3072 without AT-SPEED, and the motor enters MOTOR-FAULT. -/
  | motorStartTimeout
  /-- RUN_ON_EXPIRED (R109): The run-on count reaches its length, and the motor stops. -/
  | runOnExpired
  /-- STOP_REQUEST_MET (R109): A standing stop request finds the queue, stages and ring request empty, and the motor stops. -/
  | stopRequestMet
  /-- KEYBOARD_IDLE_TIMEOUT (R120): The keyboard idle count reaches 2048, releasing KEYBOARD ownership. -/
  | keyboardIdleTimeout
  /-- PUNCH_DONE (R122): The punch's DONE completes the row, moves the next row up, refills the stage and lets waiting leader and trailer rows join. -/
  | punchDone
  /-- TAPE_LOW (R123): The debounced TAPE-LOW becomes asserted, raising event 8. -/
  | tapeLow
  /-- TAPE_LOW_CLEARED (R123): The debounced TAPE-LOW clears. -/
  | tapeLowCleared
  /-- TAPE_OUT (R124): The debounced TAPE-OUT becomes asserted: OFFLINE, the queue is emptied, the ownership ends and INCOMPLETE is reported. -/
  | tapeOut
  /-- TAPE_OUT_CLEARED (R123): The debounced TAPE-OUT clears, and the punch returns to IDLE. -/
  | tapeOutCleared
  /-- RETRY_TIMER_EXPIRED (R144): A READY entry's retry timer reaches 0, and the Sender and Answering Unit are told. -/
  | retryTimerExpired (idx : BitVec 5)
  /-- ALARM_PULSE_END (R179): The alarm count runs out, and ALARM is released. -/
  | alarmPulseEnd
  /-- SELECT_LOW (R189): Service select goes low: a transaction begins, the status byte is frozen and WATCH is left. -/
  | selectLow
  /-- SELECT_HIGH (R189): Service select goes high, ending the transaction; an incomplete command does nothing. -/
  | selectHigh
  /-- STATUS (R190): Returns the status byte and clears the latched ERROR flag if it was shown. -/
  | svcStatus
  /-- ALERT_MASK (R191): Sets or clears selected alert mask bits and returns the mask. -/
  | svcAlertMask (param : Byte)
  /-- QUALITY (R193): Returns the integrator counters and quality byte and clears the sticky indicators shown. -/
  | svcQuality
  /-- LOG (R193): Returns call log record n. -/
  | svcLog (n : Byte)
  /-- DIRECTORY (R193): Returns a directory entry. -/
  | svcDirectory (idx : Byte)
  /-- TEXT (R193): Returns up to 64 cells of an entry's text. -/
  | svcText (idx : Byte) (off : BitVec 16) (count : Byte)
  /-- IDENT (R193): Returns part identity, configuration state, flags, reset cause and straps. -/
  | svcIdent
  /-- DELETE (R148): The ENTRY command deletes a directory entry unless it is OPEN, SENDING or DELIVERING. -/
  | svcDelete (idx : Byte)
  /-- KEEP (R148): The ENTRY command sets KEPT on an entry. -/
  | svcKeep (idx : Byte)
  /-- RELEASE (R148): The ENTRY command clears KEPT, with the retention effects. -/
  | svcRelease (idx : Byte)
  /-- RESET (R194): The service command begins a reset with cause SERVICE at select high. -/
  | svcReset
  /-- NAK (R192): An unknown command byte, an out-of-range parameter or a transaction before start-up is refused with NAK. -/
  | svcNak (cmd : Byte) (params : List Byte)
  deriving DecidableEq, Repr

end Sys2Proof
end

