-- ==== Sys2Proof/WellFormed.lean ====
section
/-! DEFINITION. Which commands are well formed: a service command's parameters lie in the ranges that R193 and
R194 give it without reference to the state. A transaction outside them is no such command; it is a NAK (R192). -/

namespace Sys2Proof

/-- How many parameter bytes a command byte takes; 0 for a byte that is no command (R193, R194). -/
def paramCount (cmd : Byte) : Nat :=
  if cmd = 0x02 then 1 else if cmd = 0x04 then 1 else if cmd = 0x05 then 1
  else if cmd = 0x06 then 4 else if cmd = 0x07 then 2 else 0

/-- A directory index is 0 to 31. -/
def indexInRange (idx : Byte) : Bool := idx.toNat < 32

/-- A LOG number is 0 to 15. -/
def logInRange (n : Byte) : Bool := n.toNat < 16

/-- A TEXT count is 1 to 64. -/
def countInRange (c : Byte) : Bool := 0 < c.toNat && c.toNat ≤ 64

/-- The command's operands are such as the spec gives it. -/
def Instr.wellFormed : Instr → Bool
  | .svcLog n => logInRange n
  | .svcDirectory i => indexInRange i
  | .svcText i _ c => indexInRange i && countInRange c
  | .svcDelete i => indexInRange i
  | .svcKeep i => indexInRange i
  | .svcRelease i => indexInRange i
  | .svcNak cmd ps => ps.length == paramCount cmd
  | _ => true

end Sys2Proof
end

