-- ==== Sys2Proof/Decode.lean ====
section
/-! DEFINITION. The block has no instruction words: no row of spec/opcode_table.json gives bits ("fields" is empty
and "fixed" is absent in all 80 rows), so no word spells a command. What the spec does encode is the service port's
transactions, by command byte and parameter bytes (R193, R194): `decodeTransaction` reads them. -/

namespace Sys2Proof

/-- The rows of the table that give bits, with the command each spells: none. -/
def encodedRows : List (Nat × Nat × Instr) := []

/-- The command that the word `w` of `nbits` bits spells by the table's bits. -/
def decodeTableWord (nbits w : Nat) : Option Instr :=
  (encodedRows.find? fun r => r.1 == nbits && r.2.1 == w).map fun r => r.2.2

/-- R194: what the operation code of ENTRY picks. -/
def entryCommand (op idx : Byte) : Option Instr :=
  match op.toNat with
  | 1 => some (.svcDelete idx)
  | 2 => some (.svcKeep idx)
  | 3 => some (.svcRelease idx)
  | _ => none

/-- R193, R194: the command that a command byte picks with these parameter bytes; none for what R192 refuses by its bytes
alone. -/
def transactionCommand (cmd : Byte) (ps : List Byte) : Option Instr :=
  match cmd.toNat, ps with
  | 0x01, [] => some .svcStatus
  | 0x02, [p] => some (.svcAlertMask p)
  | 0x03, [] => some .svcQuality
  | 0x04, [n] => some (.svcLog n)
  | 0x05, [i] => some (.svcDirectory i)
  | 0x06, [i, h, l, c] => some (.svcText i (h ++ l) c)
  | 0x07, [op, i] => entryCommand op i
  | 0x08, [] => some .svcReset
  | 0x09, [] => some .svcIdent
  | _, _ => none

/-- R189, R192 to R194: the command that a transaction's bytes spell: the one that its command byte picks, when it is well
formed, and else NAK with those bytes. -/
def decodeTransaction (cmd : Byte) (ps : List Byte) : Instr :=
  match transactionCommand cmd ps with
  | some c => if c.wellFormed then c else .svcNak cmd ps
  | none => .svcNak cmd ps

end Sys2Proof
end

