-- ==== Sys2Proof/Config.lean ====
section
/-! DEFINITION. The fixed numbers of the part, and the orders that the spec leaves open while the block goes on. -/

namespace Sys2Proof.Config

/-- Z samples to REST, and the quiet counter's ceiling (R8). -/
abbrev restSamples : Nat := 768
abbrev quietCeiling : Nat := 17088
/-- Samples of one level to BREAK-SEEN (R9). -/
abbrev breakSamples : Nat := 512
/-- Samples of a break burst (R13). -/
abbrev burstSamples : Nat := 1024
/-- Samples of one element (R1). -/
abbrev elementSamples : Nat := 64
/-- Elements of REST that end LOCAL LOOP (R15) and a held call (R63). -/
abbrev localLoopElements : Nat := 24
abbrev holdLimit : Nat := 24
/-- Lead-in recognition: run and reversals (R20). -/
abbrev leadRun : Nat := 704
abbrev leadReversals : Nat := 10
/-- Elements of lead-in and of the reply window (R39), and the refusal point (R58). -/
abbrev leadElements : Nat := 16
abbrev windowElements : Nat := 24
abbrev refusalElement : Nat := 4
/-- Hold elements to the timeout (R49). -/
abbrev holdTimeout : Nat := 1500
/-- Samples of a collision watch (R52). -/
abbrev watchSamples : Nat := 768
/-- Guards (R44). -/
abbrev answerGuard : Nat := 4
abbrev answerLatest : Nat := 8
abbrev continueGuard : Nat := 12
abbrev contentionGuard : Nat := 40
abbrev courtesyElements : Nat := 32
/-- Integrators (R32). -/
abbrev fineCeiling : Nat := 255
abbrev coarseCeiling : Nat := 63
abbrev fineClear : Nat := 4096
abbrev fineSet : Nat := 16384
abbrev coarseClear : Nat := 128
abbrev coarseSet : Nat := 512
abbrev period : Nat := 8192
/-- Ticks: ERROR lamp (R31), LOCK refusal timer (R75), CONFIG flash (R2), image retry (R184), alarm (R179). -/
abbrev errorLampTicks : Nat := 102
abbrev lockTicks : Nat := 512
abbrev flashTicks : Nat := 512
abbrev retryReadTicks : Nat := 16
abbrev readAttempts : Nat := 3
abbrev alarmTicks : Nat := 1024
/-- Debounce (R71, R73, R105, R123). -/
abbrev debounce : Nat := 4
/-- Type-ahead (R74, R75) and HERE-IS (R85). -/
abbrev typeAhead : Nat := 32
abbrev unlockAt : Nat := 24
abbrev hereIsCodes : Nat := 20
/-- Print queue (R90), LOCAL idle count (R94), motor (R108, R109). -/
abbrev printQueue : Nat := 64
abbrev localIdleTicks : Nat := 2048
abbrev motorStartTicks : Nat := 3072
abbrev runOnUnattended : Nat := 10240
abbrev runOnAttended : Nat := 92160
/-- Punch queue (R112), leader and trailer (R113), keyboard idle count (R120). -/
abbrev punchQueue : Nat := 32
abbrev leaderRows : Nat := 12
abbrev keyboardIdleTicks : Nat := 2048
/-- Store (R127, R131, R130, R143). -/
abbrev blocks : Nat := 64
abbrev blockCells : Nat := 256
abbrev slots : Nat := 32
abbrev highMark : Nat := 16
abbrev retryTicks : Nat := 30720
/-- Call log (R68) and serials (R60). -/
abbrev logRecords : Nat := 16
abbrev lastSerial : Nat := 9999
/-- FREE VALUE (log 31). R27 lets two orders occur at a line fault whose first faulted sample falls in a character: true
where the Framer decides on that sample before it is stood down. Applied to the number of the line fault. -/
opaque faultedSampleFirst : Nat → Bool
/-- FREE VALUE (logs 21, 63). R174 lets events of different blocks that reach the matrix together, and an event and a
change that a condition reads, be taken in either order, and R118 a PUNCH-STOP and a code of its call: which of those that
may come first is taken first, counted round. Applied to the number of the choice. -/
opaque eventFirst : Nat → Nat

/-- WATCH (R168). -/
abbrev watchTicks : Nat := 61440

end Sys2Proof.Config
end

