-- ==== Sys2Proof/Machine/State.lean ====
section
/-! DEFINITION. The machine's state: one structure per block of the spec (section 2.1), each with its reset values,
and the queue of commands that wait. -/

namespace Sys2Proof.Machine

/-- The block stops on nothing: every fault the spec describes is an effect on the state. No constructor. -/
inductive Fault where
  deriving DecidableEq, Repr

/-- Why a command is refused. -/
inductive Refusal where
  /-- Raised by `exec` for a command that has no meaning yet; safe (a claim about it cannot be proved). No arm of
  `exec` raises it. -/
  | notModelled (mnemonic : String)
  deriving DecidableEq, Repr

/-! ### Configuration Loader -/

/-- R188. -/
inductive ResetCause where
  | power | pin | service
  deriving DecidableEq, Repr

/-- R185. -/
inductive ConfigState where
  | valid | noAnswer | markerWrong | codeInvalid
  deriving DecidableEq, Repr

/-- Where start-up stands (R184, R187): reset asserted; a read attempt in progress; waiting 16 ticks for the next
attempt; complete. -/
inductive StartPhase where
  | inReset | reading | waiting | complete
  deriving DecidableEq, Repr

/-- R182 to R188. -/
structure Loader where
  straps : Straps
  svc : Bool
  cause : ResetCause
  phase : StartPhase
  attempts : Nat
  wait : Nat
  config : Option ConfigState
  individual : Option StationCode
  groups : List StationCode
  flashLit : Bool
  flash : Nat
  deriving DecidableEq, Repr

/-- Straps before their first sampling: DESIGN CHOICE (log 7). -/
def Loader.unsampled : Straps := ⟨0, 0, 0, 0, false, false, false, false, false, false⟩

/-- R187, R188 at power-on, reset still asserted. DESIGN CHOICE (log 49): until step 3 has judged the image the
configuration has no state, neither VALID nor invalid. -/
def Loader.powerOn : Loader :=
  ⟨Loader.unsampled, false, .power, .inReset, 0, 0, none, none, [], false, 0⟩

/-! ### Line Interface Unit -/

/-- R7, R12: drive states. -/
inductive Drive where
  | off | sending | burst
  deriving DecidableEq, Repr

/-- Kinds of element that the LIU sends (R4, R6); a hold is also a lead-in or window element. -/
inductive ElemKind where
  | space | mark | stop | hold
  deriving DecidableEq, Repr

/-- An element being driven: its level and its length in samples. -/
structure TxElem where
  kind : ElemKind
  level : Level
  len : Nat
  deriving DecidableEq, Repr

/-- R1 to R17. -/
structure Liu where
  divisor : Option Nat
  stopLen : Nat
  tickPhase : Nat
  tickEarly : Bool
  quiet : Nat
  rest : Bool
  hold : Nat
  breakRaised : Bool
  lastLevel : Level
  drive : Drive
  pol : Polarity
  elem : Option TxElem
  elemIdx : Nat
  elems : List ElemKind
  endNow : Bool
  burstN : Nat
  faultLatch : Bool
  faultIn : Bool
  faults : Nat
  deriving DecidableEq, Repr

/-- R17. -/
def Liu.reset : Liu :=
  ⟨none, 64, 0, false, 0, false, 0, false, .z, .off, .pos, none, 0, [], false, 0, false, false, 0⟩

/-! ### Character Framer and Distortion Gauge -/

/-- Section 2.1 of chapter 2. -/
inductive FramerState where
  | waitRest | quiet | leadWatch | unframed | hunt | assemble
  deriving DecidableEq, Repr

/-- R18 to R27. `lock` is the samples since the last lock point, none while the element phase is unlocked. -/
structure Framer where
  state : FramerState
  pol : Polarity
  run : Nat
  revs : Nat
  sinceRev : Nat
  lock : Option Nat
  t : Nat
  code : Code
  seenMark : Bool
  prev : Level
  deriving DecidableEq, Repr

/-- R18. -/
def Framer.reset : Framer := ⟨.waitRest, .neg, 0, 0, 0, none, 0, 0, false, .z⟩

/-- R28: the transition instants of the character in progress. -/
structure Gauge where
  trans : List Nat
  deriving DecidableEq, Repr

def Gauge.reset : Gauge := ⟨[]⟩

/-! ### Quality Monitor -/

/-- R32. -/
structure Integrator where
  counter : Nat
  divider : Nat
  age : Nat
  flag : Bool
  sticky : Bool
  deriving DecidableEq, Repr

def Integrator.reset : Integrator := ⟨0, 0, 0, false, false⟩

/-- R31, R32. `errLamp` is the ticks the ERROR lamp stays lit, none while it is dark. -/
structure Quality where
  fine : Integrator
  coarse : Integrator
  errLamp : Option Nat
  deriving DecidableEq, Repr

def Quality.reset : Quality := ⟨.reset, .reset, none⟩

/-- R37. -/
inductive LQ where
  | good | fair | poor
  deriving DecidableEq, Repr

/-! ### Sender -/

/-- R40. -/
inductive SendKind where
  | message | answer | cont | poll | deliver
  deriving DecidableEq, Repr

/-- Section 3.2. -/
inductive SenderPhase where
  | idle | waitGuard | lead | header | window | text | yielding | stopping | watchLine
  deriving DecidableEq, Repr

/-- R41. -/
inductive JobKind where
  | message | poll | answer | deliver
  deriving DecidableEq, Repr

/-- R41: where a job's text comes from. `store none` is the empty DELIVER of R165. -/
inductive TextSource where
  | keyboard
  | store (idx : Option Nat)
  | answerBack
  | access (codes : List Code)
  deriving DecidableEq, Repr

/-- R41. `first` marks an ANSWER or the first DELIVER of a collection (guard 4, R44); `callSerial` is the call that
the job serves (an obligation) or that its header opened (R142). -/
structure Job where
  kind : JobKind
  dest : StationCode
  source : TextSource
  verify : Bool
  first : Bool
  callSerial : Option Nat
  deriving DecidableEq, Repr

/-- R43: how a job ends. -/
inductive JobResult where
  | sent | broken | refused | aborted | lapsed
  deriving DecidableEq, Repr

/-- R51: what has happened since the yield. -/
inductive YieldState where
  | fresh | begun | answered
  deriving DecidableEq, Repr

/-- R41 to R55. -/
structure Sender where
  phase : SenderPhase
  job : Option Job
  oblig : Option Job
  guard : Nat
  sendKind : SendKind
  count : Nat
  owed : List Code
  wru : Bool
  pos : Nat
  lineCase : Case
  holds : Nat
  gen : BitVec 15
  courtesy : Bool
  yld : YieldState
  stopPhase : SenderPhase
  watch : Nat
  deriving DecidableEq, Repr

/-- R69. -/
def Sender.reset : Sender :=
  ⟨.idle, none, none, 0, .message, 0, [], false, 0, .low, 0, 0, false, .fresh, .idle, 0⟩

/-! ### Listener -/

/-- R56. -/
inductive ListenerPhase where
  | atRest | leadWatch | unframed | header | text
  deriving DecidableEq, Repr

/-- R57: the header result. -/
inductive Hdr where
  | pending
  | invalid
  | valid (origin : StationCode) (kind : SendKind) (dest : StationCode)
  deriving DecidableEq, Repr

/-- R56 to R59. -/
structure Listener where
  phase : ListenerPhase
  chars : List (Code × Bool)
  hdr : Hdr
  window : Nat
  refusalGiven : Bool
  textCase : Case
  deriving DecidableEq, Repr

/-- R69. -/
def Listener.reset : Listener := ⟨.atRest, [], .pending, 0, false, .low⟩

/-- R59: the functions recognised in text. -/
inductive TextFn where
  | wru | bell | eom | collect
  deriving DecidableEq, Repr

/-! ### Call Tracker -/

/-- R61; OUTSIDER opens no call. -/
inductive Role where
  | caller | called | member | watcher
  deriving DecidableEq, Repr

inductive CallKind where
  | message | poll
  deriving DecidableEq, Repr

/-- R63, R65, R68. -/
inductive CallOutcome where
  | complete | incomplete | broken | refused | aborted | notServed
  deriving DecidableEq, Repr

/-- R68, R150. -/
inductive Disp where
  | direct | spool | split | lost | partLost | refused
  deriving DecidableEq, Repr

/-- R125. -/
inductive PunchResult where
  | none | punched | incomplete | missed
  deriving DecidableEq, Repr

/-- R68: one record of the call log. -/
structure LogRecord where
  serial : Nat
  role : Role
  origin : StationCode
  dest : StationCode
  kind : CallKind
  outcome : Option CallOutcome
  disp : Option Disp
  chars : Nat
  errs : Nat
  maxD : Nat
  doubtful : Bool
  timedOut : Bool
  noAnswerBack : Bool
  punch : PunchResult
  answeredBy : Option (List Code)
  dirIndex : Option Nat
  deliveries : Option Nat
  deriving DecidableEq, Repr

/-- R60. -/
inductive CallState where
  | active | holding | judging
  deriving DecidableEq, Repr

/-- R60: the held call, with its log record; `sKind` is the kind of its last sending, `textStarted` says that its text
start (R114) has come. -/
structure Call where
  log : LogRecord
  state : CallState
  eom : Bool
  deliveries : Nat
  sKind : SendKind
  textStarted : Bool
  deriving DecidableEq, Repr

/-- R62: whether the sending now followed belongs to the held call. -/
inductive Belongs where
  | before | joined | outside
  deriving DecidableEq, Repr

/-- R60 to R68. `log` holds the completed records, newest first; the held call's record stands in the call. -/
structure Tracker where
  lastSerial : Nat
  call : Option Call
  errs : Nat
  maxD : Nat
  belongs : Belongs
  log : List LogRecord
  deriving DecidableEq, Repr

/-- R69 at power-on. -/
def Tracker.powerOn : Tracker := ⟨0, none, 0, 0, .outside, []⟩

/-! ### Keyboard Encoder -/

/-- R71: debounced state and count of contrary readings. -/
structure Key where
  down : Bool
  count : Nat
  deriving DecidableEq, Repr

def Key.up : Key := ⟨false, 0⟩

/-- R73: a switch's debounced position, the position read against it, and for how many scans. -/
structure Switch (α : Type) where
  pos : α
  cand : α
  count : Nat
  deriving DecidableEq, Repr

/-- R74: the consumer of an entry. -/
inductive Route where
  | line | loc | prepare
  deriving DecidableEq, Repr

/-- R74: a type-ahead entry; `code` is none for an END-MARKER. -/
structure Entry where
  code : Option Code
  kcase : Option Case
  route : Route
  localCase : Option Case
  deriving DecidableEq, Repr

/-- R78: a sequence's route. -/
inductive SetupRoute where
  | line | collect | prepare
  deriving DecidableEq, Repr

/-- R78: the set-up state. `code d taken` is CODE-1 to CODE-4 with zero to three access codes taken (R80). -/
inductive Setup where
  | ready
  | dest1 (r : SetupRoute)
  | dest2 (r : SetupRoute) (d1 : Code)
  | code (d : StationCode) (taken : List Code)
  | openLine (d : StationCode)
  | openPrepare (d : StationCode) (idx : Nat)
  deriving DecidableEq, Repr

/-- R78: the keyboard's call request; `access` is present for POLL; `taken` is TAKEN, else PENDING. -/
structure CallRequest where
  dest : StationCode
  access : Option (List Code)
  taken : Bool
  deriving DecidableEq, Repr

/-- R70 to R89. -/
structure Kbd where
  row : Nat
  scanWait : Nat
  firstScan : Bool
  keys : List Key
  fns : List Key
  mode : Switch ModePos
  punchSw : Switch PunchPos
  attended : Switch Bool
  queue : List Entry
  locked : Bool
  lockTimer : Option Nat
  localCase : Case
  setup : Setup
  request : Option CallRequest
  prep : Option Nat
  prepCase : Case
  seq : Bool
  deriving DecidableEq, Repr

/-- R89. -/
def Kbd.reset : Kbd :=
  ⟨0, 0, true, List.replicate 64 .up, List.replicate 6 .up, ⟨.line, .line, 0⟩, ⟨.off, .off, 0⟩, ⟨true, true, 0⟩,
    [], false, none, .low, .ready, none, none, .low, false⟩

/-! ### Print Controller -/

/-- R90: who joined an item; a DRAIN item carries its cell offset. -/
inductive Producer where
  | line | drain (off : Nat) | loc
  deriving DecidableEq, Repr

/-- R90: the owner of a message marker. -/
inductive Owner where
  | line (serial : Nat)
  | drain (idx : Nat)
  deriving DecidableEq, Repr

/-- R90: an item of the print queue. -/
inductive PItem where
  | code (c : Code) (err : Bool) (k : Case) (by_ : Producer)
  | start (o : Owner) (continued : Bool)
  | finish (o : Owner)
  deriving DecidableEq, Repr

/-- Section 5.2: the enqueue right. -/
inductive Right where
  | free
  | line (serial : Nat)
  | drain (idx : Nat)
  | loc
  deriving DecidableEq, Repr

/-- R99: a command to the print mechanism. -/
inductive PCmd where
  | strike (wheel : Nat)
  | advance
  | ret (n : Nat)
  | feed
  | bell
  deriving DecidableEq, Repr

/-- R103: a command in a stage; `cell` is the offset of the DRAIN cell it belongs to (R97). -/
structure Stage where
  cmd : PCmd
  issued : Bool
  cell : Option Nat
  deriving DecidableEq, Repr

/-- R105, R123: a sensing input's debounced state and its count of contrary tick readings. -/
structure Debounce where
  on : Bool
  count : Nat
  deriving DecidableEq, Repr

def Debounce.clear : Debounce := ⟨false, 0⟩

/-- Section 5.6. -/
inductive Motor where
  | stopped | starting | running | fault
  deriving DecidableEq, Repr

/-- R90 to R110. -/
structure Printer where
  queue : List PItem
  right : Right
  pcase : Case
  drain : Option Nat
  readPos : Nat
  resume : Bool
  formedPos : Nat
  endJoined : Bool
  column : Nat
  width : Nat
  active : Option Stage
  next : Option Stage
  part : List PCmd
  ring : Bool
  homing : List PCmd
  homeAtSpeed : Bool
  paper : Debounce
  fault : Debounce
  motor : Motor
  startCount : Nat
  runOn : Nat
  stopReq : Bool
  atSpeed : Bool
  runOut : Bool
  stopMet : Bool
  localIdle : Nat
  deriving DecidableEq, Repr

/-- R110. -/
def Printer.reset : Printer :=
  ⟨[], .free, .low, none, 0, false, 0, false, 1, 69, none, none, [], false, [], false, .clear, .clear,
    .stopped, 0, 0, false, false, false, false, 0⟩

/-! ### Punch Controller -/

/-- R112. -/
inductive RowKind where
  | leader | text | trailer
  deriving DecidableEq, Repr

/-- R112, R113: an owner tag. -/
inductive Tag where
  | call (serial : Nat)
  | keyboard
  deriving DecidableEq, Repr

/-- R112. -/
structure Row where
  code : Code
  kind : RowKind
  tag : Tag
  deriving DecidableEq, Repr

/-- R113: an ownership; its phase names the kind of row now joining. -/
structure Ownership where
  tag : Tag
  phase : RowKind
  leader : Nat
  trailer : Nat
  cut : Bool
  idle : Nat
  deriving DecidableEq, Repr

/-- R114. -/
inductive Claim where
  | notWanted | wanted | made
  deriving DecidableEq, Repr

/-- R111 to R126. `claim` is none while no call is held; `fresh` says that the tape inputs await their first tick
reading after reset. -/
structure Punch where
  queue : List Row
  own : Option Ownership
  claim : Option Claim
  kbCase : Case
  active : Option Row
  next : Option Row
  strobe : Bool
  low : Debounce
  out : Debounce
  fresh : Bool
  deriving DecidableEq, Repr

/-- R126. -/
def Punch.reset : Punch := ⟨[], none, none, .low, none, none, false, .clear, .clear, true⟩

/-! ### Message Store -/

/-- R127. -/
structure Cell where
  code : Code
  err : Bool
  par : Bool
  deriving DecidableEq, Repr

/-- The store's cells by address 256 × block + cell, in canonical form (Machine/Ops.lean). -/
abbrev Memory := List (Nat × Cell)

inductive EntryKind where
  | received | prepared | held
  deriving DecidableEq, Repr

/-- R132. -/
inductive EntryState where
  | opened | closed | ready | sending | failed | sent | readyHeld | delivering | delivered
  deriving DecidableEq, Repr

/-- R132. -/
inductive PrintState where
  | waiting | printing | printed
  deriving DecidableEq, Repr

/-- R131. `serial`, `outcome`, `print`, `printPos` mean something for RECEIVED, `attempts` and `retry` for PREPARED;
`retry` is none when the timer is expired. -/
structure DirEntry where
  kind : EntryKind
  state : EntryState
  serial : Nat
  origin : StationCode
  dest : StationCode
  outcome : Option CallOutcome
  len : Nat
  chain : List Nat
  print : PrintState
  printPos : Nat
  doubtful : Bool
  damaged : Bool
  continued : Bool
  kept : Bool
  attempts : Nat
  retry : Option Nat
  sending : Option Nat
  deriving DecidableEq, Repr

/-- R127 to R149. -/
structure Store where
  cells : Memory
  free : List Nat
  slots : List (Option DirEntry)
  order : List Nat
  high : Bool
  fault : Bool
  hold : Bool
  note : Option Nat
  deriving DecidableEq, Repr

/-- R149 at power-on. -/
def Store.powerOn : Store := ⟨[], List.range 64, List.replicate 32 none, [], false, false, false, none⟩

/-! ### Answering Unit -/

/-- R150. -/
inductive DispState where
  | awaited | refused | direct | spool | lost
  deriving DecidableEq, Repr

/-- R150, R155. `deliver` says that the message is a DELIVER's; `contFirst` that the first code of a CONTINUED entry is
awaited; `lastJoin` is the Listener's text case after the last code of this sending that joined the print queue;
`later` that the text of a sending of the message has begun before; `eom` that the last text code of the message was
EOM (R160). -/
structure DispRecord where
  state : DispState
  spoolMark : Bool
  taken : Bool
  entry : Option Nat
  spoolCase : Case
  refusal : Bool
  recorded : Option Disp
  origin : StationCode
  dest : StationCode
  deliver : Bool
  contFirst : Bool
  lastJoin : Option Case
  later : Bool
  eom : Bool
  deriving DecidableEq, Repr

/-- R163. -/
inductive Facility where
  | disabled | opened | locked
  deriving DecidableEq, Repr

/-- R165. -/
inductive CollPhase where
  | serving | between | closing
  deriving DecidableEq, Repr

/-- R165. -/
structure Collection where
  serial : Nat
  given : Nat
  entry : Option Nat
  phase : CollPhase
  deriving DecidableEq, Repr

/-- R150 to R170. -/
structure Answer where
  disp : Option DispRecord
  callSpool : Bool
  pending : Bool
  answerBack : List Code
  access : Option (List Code)
  facility : Facility
  wrong : Nat
  poll : List (Code × Bool)
  coll : Option Collection
  watch : Bool
  watchCount : Nat
  deriving DecidableEq, Repr

/-- R161, R163, R170. -/
def Answer.reset : Answer :=
  ⟨none, false, false, List.replicate 20 0, none, .opened, 0, [], none, false, 0⟩

/-! ### Event Link Matrix -/

/-- R171. -/
structure Link where
  event : BitVec 4
  cond : BitVec 4
  action : BitVec 4
  enable : Bool
  deriving DecidableEq, Repr

/-- R172: an event with the serial of the call it belongs to. `late` is the model's own (log 63): the text code of that
call which reaches the punch together with the event and is taken after it (R118). -/
structure Event where
  code : BitVec 4
  serial : Option Nat
  late : Option Code
  deriving DecidableEq, Repr

/-- R172, R174: an event as its block raised it, and the store's free count at that moment. -/
structure Raised where
  event : Event
  free : Nat
  deriving DecidableEq, Repr

/-- R171, R179. Two fields are the model's own (log 21): `raised` is the events of the step being taken, empty between
commands; `choices` counts the choices among what is taken together, for the free value `Config.eventFirst`. -/
structure Links where
  table : Option (List Link)
  isDefault : Bool
  lampA : Bool
  lampB : Bool
  alarm : Option Nat
  raised : List Raised
  choices : Nat
  deriving DecidableEq, Repr

/-- R171, R179. -/
def Links.reset : Links := ⟨none, false, false, false, none, [], 0⟩

/-! ### Service port -/

/-- What a transaction does at its end (R190, R191, R193, R194). -/
inductive TxnEffect where
  | none
  | clearError
  | clearSticky (fine coarse : Bool)
  | setMask (mask : BitVec 7)
  | reset
  deriving DecidableEq, Repr

/-- R189, R190, R192: a transaction in progress. `errSince` says that an error event has come since its start. -/
structure Txn where
  status : Byte
  errSince : Bool
  early : Bool
  taken : Bool
  response : List Byte
  effect : TxnEffect
  deriving DecidableEq, Repr

/-- R189 to R191. `selectLow` is the level of the select input. -/
structure Port where
  selectLow : Bool
  txn : Option Txn
  errFlag : Bool
  mask : BitVec 7
  deriving DecidableEq, Repr

/-- R191. -/
def Port.reset : Port := ⟨false, none, false, 0⟩

/-! ### The machine -/

/-- The whole block, and the commands that wait, first in, first out. -/
structure State where
  loader : Loader
  liu : Liu
  framer : Framer
  gauge : Gauge
  quality : Quality
  sender : Sender
  listener : Listener
  tracker : Tracker
  kbd : Kbd
  printer : Printer
  punch : Punch
  store : Store
  answer : Answer
  links : Links
  port : Port
  pending : List Instr
  deriving DecidableEq, Repr

/-- The machine at power-on with reset still asserted (R188, R187 step 1), the outside pins inactive (log 6), no
command waiting. -/
def State.reset : State where
  loader := .powerOn
  liu := .reset
  framer := .reset
  gauge := .reset
  quality := .reset
  sender := .reset
  listener := .reset
  tracker := .powerOn
  kbd := .reset
  printer := .reset
  punch := .reset
  store := .powerOn
  answer := .reset
  links := .reset
  port := .reset
  pending := []

end Sys2Proof.Machine
end

