-- ==== Sys2Proof/Machine/Ops.lean ====
section
/-! DEFINITION. The shared operations: putting a block back into the state, the store's memory, debouncing. -/

namespace Sys2Proof.Machine

/-- The state with another Loader. -/
def State.setLoader (s : State) (x : Loader) : State := { s with loader := x }

/-- The state with another Liu. -/
def State.setLiu (s : State) (x : Liu) : State := { s with liu := x }

/-- The state with another Framer. -/
def State.setFramer (s : State) (x : Framer) : State := { s with framer := x }

/-- The state with another Gauge. -/
def State.setGauge (s : State) (x : Gauge) : State := { s with gauge := x }

/-- The state with another Quality. -/
def State.setQuality (s : State) (x : Quality) : State := { s with quality := x }

/-- The state with another Sender. -/
def State.setSender (s : State) (x : Sender) : State := { s with sender := x }

/-- The state with another Listener. -/
def State.setListener (s : State) (x : Listener) : State := { s with listener := x }

/-- The state with another Tracker. -/
def State.setTracker (s : State) (x : Tracker) : State := { s with tracker := x }

/-- The state with another Kbd. -/
def State.setKbd (s : State) (x : Kbd) : State := { s with kbd := x }

/-- The state with another Printer. -/
def State.setPrinter (s : State) (x : Printer) : State := { s with printer := x }

/-- The state with another Punch. -/
def State.setPunch (s : State) (x : Punch) : State := { s with punch := x }

/-- The state with another Store. -/
def State.setStore (s : State) (x : Store) : State := { s with store := x }

/-- The state with another Answer. -/
def State.setAnswer (s : State) (x : Answer) : State := { s with answer := x }

/-- The state with another Links. -/
def State.setLinks (s : State) (x : Links) : State := { s with links := x }

/-- The state with another Port. -/
def State.setPort (s : State) (x : Port) : State := { s with port := x }

/-- The state with other waiting commands. -/
def State.setPending (s : State) (q : List Instr) : State := { s with pending := q }

/-- A step that comes about only when it is due: the block changes as `f` says, or not at all (log 1). -/
def stepWhen (due : Bool) (f : State → State) (s : State) : Host.Outcome State Fault Refusal :=
  .next (if due then f s else s)

/-! ### The store's memory (R127)

Addresses strictly rising, no cell equal to the blank one that an unlisted address reads as (log 18). -/

/-- The parity of the ones among a code's bits. -/
def oddOnes (c : Code) : Bool :=
  c.getLsbD 0 ^^ (c.getLsbD 1 ^^ (c.getLsbD 2 ^^ (c.getLsbD 3 ^^ c.getLsbD 4)))

/-- A cell as a writer leaves it: the code's five bits, the error mark and the parity bit together hold an odd number
of ones (R127). -/
def Cell.make (c : Code) (err : Bool) : Cell := ⟨c, err, !(oddOnes c ^^ err)⟩

/-- The parity agrees (R127). -/
def Cell.good (c : Cell) : Bool := (oddOnes c.code ^^ (c.err ^^ c.par))

/-- What an unlisted address holds. DESIGN CHOICE (log 18); no reader is given it. -/
def Cell.blank : Cell := .make 0 false

/-- The cell at an address. -/
def Memory.read (m : Memory) (a : Nat) : Cell :=
  match m with
  | [] => .blank
  | (b, c) :: rest => if a = b then c else Memory.read rest a

/-- Put a cell at an address of a rising list, taking it off the list when it is blank. -/
def Memory.write (m : Memory) (a : Nat) (c : Cell) : Memory :=
  match m with
  | [] => if c = .blank then [] else [(a, c)]
  | (b, d) :: rest =>
    if a < b then (if c = .blank then (b, d) :: rest else (a, c) :: (b, d) :: rest)
    else if a = b then (if c = .blank then rest else (a, c) :: rest)
    else (b, d) :: Memory.write rest a c

/-- Addresses above `lo` and strictly rising, no blank cell listed. -/
def Memory.wfFrom (lo : Nat) : Memory → Bool
  | [] => true
  | (a, c) :: rest => decide (lo ≤ a) && decide (c ≠ .blank) && Memory.wfFrom (a + 1) rest

/-- The canonical form. -/
def Memory.wf (m : Memory) : Bool := Memory.wfFrom 0 m

/-! ### Debouncing -/

/-- One tick reading of a sensing input (R105, R123): contrary readings are counted, a reading that agrees clears the
count. -/
def Debounce.read (d : Debounce) (x : Bool) : Debounce :=
  if x = d.on then { d with count := 0 } else { d with count := min Config.debounce (d.count + 1) }

/-- Four consecutive contrary readings have come. -/
def Debounce.due (d : Debounce) : Bool := d.count = Config.debounce

/-- The debounced state changes. -/
def Debounce.change (d : Debounce) : Debounce := ⟨!d.on, 0⟩

/-- One scan reading of a key (R71). -/
def Key.read (k : Key) (closed : Bool) : Key :=
  if closed = k.down then { k with count := 0 } else { k with count := min Config.debounce (k.count + 1) }

/-- The key's fourth closed reading has come (R71). -/
def Key.downDue (k : Key) : Bool := !k.down && k.count = Config.debounce

/-- The key's fourth open reading has come (R71). -/
def Key.upDue (k : Key) : Bool := k.down && k.count = Config.debounce

/-- One scan reading of a switch (R73): the same new position four scans running; another reading restarts the
count. -/
def Switch.read {α : Type} [DecidableEq α] (w : Switch α) (x : α) : Switch α :=
  if x = w.pos then { w with cand := x, count := 0 }
  else if x = w.cand then { w with count := min Config.debounce (w.count + 1) }
  else { w with cand := x, count := 1 }

/-- The switch's new position is due (R73). -/
def Switch.due {α : Type} (w : Switch α) : Bool := w.count = Config.debounce

/-- The switch takes the new position. -/
def Switch.change {α : Type} (w : Switch α) : Switch α := ⟨w.cand, w.cand, 0⟩

/-- One tick of a running timer. -/
def timerTick (t : Option Nat) : Option Nat := t.map (· - 1)

end Sys2Proof.Machine
end

