-- ==== Sys2Proof/Machine/Operands.lean ====
section
/-! DEFINITION. How operands are read: comparators, straps, key positions, cases, header kinds, the configuration
image. -/

namespace Sys2Proof.Machine

/-! ### Line -/

/-- R3: the level read from received-P and received-N. -/
def readLevel (rxP rxN : Bool) : Level :=
  match rxP, rxN with
  | true, false => .p
  | false, true => .n
  | _, _ => .z

/-- R3: what the line reads when two stations drive. -/
def lineSum (a b : Level) : Level :=
  match a, b with
  | .z, x => x
  | x, .z => x
  | .p, .p => .p
  | .n, .n => .n
  | _, _ => .z

/-- The polarity of a level, none for Z. -/
def levelPol : Level → Option Polarity
  | .p => some .pos
  | .n => some .neg
  | .z => none

/-! ### Straps -/

/-- R1, R2: the divisor; none for the invalid values 6 and 7. -/
def rateDivisor (r : BitVec 3) : Option Nat :=
  match r.toNat with
  | 0 => some 1152
  | 1 => some 768
  | 2 => some 576
  | 3 => some 384
  | 4 => some 288
  | 5 => some 192
  | _ => none

/-- R5: the stop in samples; 3 is clamped to 1.5 elements. -/
def stopSamples (b : BitVec 2) : Nat :=
  match b.toNat with
  | 0 => 64
  | 2 => 128
  | _ => 96

/-- R29: the margin M in sixty-fourths. -/
def marginOf (b : BitVec 2) : Nat := 16 + 4 * b.toNat

/-- R102: the width in columns; 3 is clamped to 72. -/
def widthOf (b : BitVec 2) : Nat :=
  match b.toNat with
  | 0 => 69
  | 2 => 80
  | _ => 72

/-! ### Codes and cases -/

/-- BLANK, SP, CR, LS, HS and LF carry no case (section 3.1). -/
def caseless (c : Code) : Bool :=
  c = 0 || c = 5 || c = 9 || c = 14 || c = 17 || c = 18

/-- LS for low, HS for high. -/
def shiftCode : Case → Code
  | .low => 14
  | .high => 17

/-- LS sets L, HS sets H, SP sets L with USOS (R48, R59, R74, R81, R96, R119, R155). -/
def trackCase (usos : Bool) (k : Case) (c : Code) : Case :=
  if c = 14 then .low else if c = 17 then .high else if usos && c = 5 then .low else k

/-- R59: the function that a text code is recognised as, in the case `k`. -/
def textFn (k : Case) (err : Bool) (c : Code) : Option TextFn :=
  if err || k = .low then none
  else if c = 22 then some .wru
  else if c = 25 then some .bell
  else if c = 29 then some .eom
  else if c = 30 then some .collect
  else none

/-- R70: the raw value of a matrix position. -/
def keyCode (p : BitVec 6) : Code := p.setWidth 5

/-- R70: the case of a matrix position, none for the case-independent codes. -/
def keyCase (p : BitVec 6) : Option Case :=
  if caseless (keyCode p) then none else if p.toNat < 32 then some .low else some .high

/-- R70: positions 61 and 62 are dead. -/
def keyDead (p : BitVec 6) : Bool := p = 61 || p = 62

/-- R73: the fourth combination of the MODE inputs is read as LOCAL. -/
def modeRead : ModeIn → ModePos
  | .pos m => m
  | .fourth => .loc

/-- R73: the fourth combination of the PUNCH inputs is read as OFF. -/
def punchRead : PunchIn → PunchPos
  | .pos p => p
  | .fourth => .off

/-- The place of a function key's debounce state. -/
def fnIdx : FnKey → Nat
  | .call => 0
  | .collect => 1
  | .endKey => 2
  | .breakKey => 3
  | .hereIs => 4
  | .cancel => 5

/-- The function key inputs in that order. -/
def fnReadings (i : TickInputs) : List Bool :=
  [i.call, i.collect, i.endKey, i.breakKey, i.hereIs, i.cancel]

/-! ### Header -/

/-- R40: the kind that a kind code names. -/
def SendKind.ofCode (c : Code) : Option SendKind :=
  match c.toNat with
  | 1 => some .message
  | 2 => some .answer
  | 3 => some .cont
  | 4 => some .poll
  | 5 => some .deliver
  | _ => none

/-- R40. -/
def SendKind.code : SendKind → Code
  | .message => 1
  | .answer => 2
  | .cont => 3
  | .poll => 4
  | .deliver => 5

/-- R40, R57: the header result of five header characters. -/
def headerOf : List (Code × Bool) → Hdr
  | [(o1, e1), (o2, e2), (k, e3), (d1, e4), (d2, e5)] =>
    if e1 || e2 || e3 || e4 || e5 then .invalid
    else
      match SendKind.ofCode k with
      | none => .invalid
      | some kind =>
        if StationCode.noZero ⟨o1, o2⟩ && (⟨o1, o2⟩ : StationCode) != .all && StationCode.noZero ⟨d1, d2⟩
        then .valid ⟨o1, o2⟩ kind ⟨d1, d2⟩
        else .invalid
  | _ => .invalid

/-! ### Configuration image (R184) -/

/-- A byte of the image. -/
def imageByte (v : Vector Byte 65) (i : Nat) : Byte := v.toList.getD i 0

/-- A code byte carries its code in its five low bits. -/
def imageCode (v : Vector Byte 65) (i : Nat) : Code := (imageByte v i).setWidth 5

/-- The station code at bytes i and i + 1. -/
def imageStation (v : Vector Byte 65) (i : Nat) : StationCode := ⟨imageCode v i, imageCode v (i + 1)⟩

/-- R185: the configuration state that a read gives. -/
def judgeImage (img : Option (Vector Byte 65)) : ConfigState :=
  match img with
  | none => .noAnswer
  | some v =>
    if imageByte v 0 ≠ 0x6B then .markerWrong
    else if (imageStation v 1).noZero && imageStation v 1 != .all then .valid
    else .codeInvalid

/-- R185: a group code is accepted unless it has a 0 element, is 31/31, equals the individual code or repeats one. -/
def acceptGroup (ind : StationCode) (acc : List StationCode) (g : StationCode) : List StationCode :=
  if g.noZero && g != .all && g != ind && !acc.contains g then acc ++ [g] else acc

/-- R185: the group codes of the selection table. -/
def imageGroups (v : Vector Byte 65) : List StationCode :=
  [imageStation v 3, imageStation v 5, imageStation v 7].foldl (acceptGroup (imageStation v 1)) []

/-- R184: bytes 9 to 28. -/
def imageAnswerBack (v : Vector Byte 65) : List Code := (List.range 20).map fun k => imageCode v (9 + k)

/-- R184: bytes 29 to 32. -/
def imageAccess (v : Vector Byte 65) : List Code := (List.range 4).map fun k => imageCode v (29 + k)

/-- R184: link entry k. -/
def imageLink (v : Vector Byte 65) (k : Nat) : Link :=
  let a := imageByte v (33 + 2 * k)
  let b := imageByte v (34 + 2 * k)
  ⟨(a >>> 4).setWidth 4, a.setWidth 4, b.setWidth 4, b.getLsbD 7⟩

/-- R184: bytes 33 to 64 are all 0x00. -/
def linkAreaZero (v : Vector Byte 65) : Bool := (List.range 32).all fun k => imageByte v (33 + k) = 0

/-- R171: the sixteen entries of the image. -/
def imageLinks (v : Vector Byte 65) : List Link := (List.range 16).map (imageLink v)

/-- R181: the default table. -/
def defaultLinks : List Link :=
  [⟨0, 2, 3, true⟩, ⟨0, 10, 1, true⟩, ⟨3, 2, 4, true⟩, ⟨6, 0, 7, true⟩, ⟨7, 0, 8, true⟩, ⟨11, 0, 9, true⟩,
    ⟨12, 0, 10, true⟩] ++ List.replicate 9 ⟨0, 0, 0, false⟩

end Sys2Proof.Machine
end

