-- ==== Sys2Proof/Machine/StoreOps.lean ====
section
/-! DEFINITION. The Message Store's own operations (chapter 7), on the store alone. -/

namespace Sys2Proof.Machine

/-! ### Directory -/

/-- The entry in a slot. -/
def Store.entry (st : Store) (i : Nat) : Option DirEntry := st.slots.getD i none

/-- Change the entry in a slot. -/
def Store.modify (st : Store) (i : Nat) (f : DirEntry → DirEntry) : Store :=
  { st with slots := st.slots.modify i (Option.map f) }

/-- The indices, in creation order, of the entries that `p` picks (R133). -/
def Store.listOf (st : Store) (p : DirEntry → Bool) : List Nat :=
  st.order.filter fun i => (st.entry i).any p

/-- R133: the print list. -/
def Store.printList (st : Store) : List Nat :=
  st.listOf fun e => e.kind = .received && e.print != .printed

/-- R133: the outbound list. -/
def Store.outboundList (st : Store) : List Nat :=
  st.listOf fun e => e.kind = .prepared && e.state = .ready

/-- R133: the held list. -/
def Store.heldList (st : Store) : List Nat :=
  st.listOf fun e => e.kind = .held && e.state = .readyHeld

/-- R144: the oldest READY entry whose timer has expired, unless outbound is held. -/
def Store.offered (st : Store) : Option Nat :=
  if st.hold then none
  else st.outboundList.find? fun i => (st.entry i).any fun e => e.retry.isNone

/-! ### Blocks (R129, R130) -/

/-- Put a block number into the rising list of free ones. -/
def insertBlock (b : Nat) : List Nat → List Nat
  | [] => [b]
  | x :: xs => if b < x then b :: x :: xs else x :: insertBlock b xs

/-- Take the lowest free block; an allocation to 16 sets STORE-HIGH (R130). -/
def Store.alloc (st : Store) : Option (Nat × Store) :=
  match st.free with
  | [] => none
  | b :: rest => some (b, { st with free := rest, high := st.high || rest.length = Config.highMark })

/-- Return blocks to the free set; a count above 16 clears STORE-HIGH (R130). -/
def Store.freeBlocks (st : Store) (bs : List Nat) : Store :=
  let free := bs.foldr insertBlock st.free
  { st with free := free, high := st.high && free.length ≤ Config.highMark }

/-- R146: an entry leaves its slot, its blocks the chain, and its index the creation order. -/
def Store.remove (st : Store) (i : Nat) : Store :=
  match st.entry i with
  | none => st
  | some e =>
    ({ st with slots := st.slots.set i none, order := st.order.filter (· != i) }).freeBlocks e.chain

/-- R135: RECEIVED, PRINTED and not KEPT; a PRINTED entry is CLOSED (R132), and no OPEN one is reclaimed. -/
def DirEntry.reclaimable (e : DirEntry) : Bool :=
  e.kind = .received && e.state = .closed && e.print = .printed && !e.kept

/-- R135: the oldest entry that may be reclaimed. -/
def Store.reclaimIndex (st : Store) : Option Nat :=
  st.order.find? fun i => (st.entry i).any DirEntry.reclaimable

/-- R134, R136: reclaim, oldest first, until `ok` holds or nothing can be reclaimed; `n` bounds the entries. -/
def Store.reclaimUntil (ok : Store → Bool) : Nat → Store → Store
  | 0, st => st
  | n + 1, st =>
    if ok st then st
    else
      match st.reclaimIndex with
      | none => st
      | some i => Store.reclaimUntil ok n (st.remove i)

/-- A slot is empty. -/
def Store.slotFree (st : Store) : Bool := st.slots.any Option.isNone

/-- A block is free. -/
def Store.blockFree (st : Store) : Bool := !st.free.isEmpty

/-! ### Creation (R134) -/

/-- What a writer asks for. -/
structure CreateReq where
  kind : EntryKind
  origin : StationCode
  dest : StationCode
  serial : Nat
  continued : Bool
  doubtful : Bool
  deriving DecidableEq, Repr

/-- R134, R138, R147: the entry as it is created. -/
def CreateReq.entry (r : CreateReq) (note : Option Nat) (b : Nat) : DirEntry where
  kind := r.kind
  state := .opened
  serial := r.serial
  origin := r.origin
  dest := r.dest
  outcome := none
  len := 0
  chain := [b]
  print := .waiting
  printPos := 0
  doubtful := r.doubtful
  damaged := false
  continued := r.continued
  kept := r.kind = .received && note = some r.serial
  attempts := 0
  retry := none
  sending := none

/-- R134: the index, or none for EXHAUSTED. -/
def Store.create (st : Store) (r : CreateReq) : Store × Option Nat :=
  let st := Store.reclaimUntil (fun t => t.slotFree && t.blockFree) Config.slots st
  match st.slots.findIdx? Option.isNone, st.alloc with
  | some i, some (b, t) =>
    ({ t with slots := t.slots.set i (some (r.entry t.note b)), order := t.order ++ [i] }, some i)
  | _, _ => (st, none)

/-- R151: the store would create an entry. -/
def Store.canCreate (st : Store) : Bool :=
  (st.slotFree || st.reclaimIndex.isSome) && (st.blockFree || st.reclaimIndex.isSome)

/-! ### Writing and reading cells (R127, R128, R136, R137) -/

/-- R127: the address of the cell at an offset of a block chain. -/
def cellAddr (chain : List Nat) (off : Nat) : Nat :=
  Config.blockCells * chain.getD (off / Config.blockCells) 0 + off % Config.blockCells

/-- Write the cell at the end of an entry's text, in the chain given. -/
def Store.append (st : Store) (i : Nat) (e : DirEntry) (chain : List Nat) (c : Code) (err : Bool) : Store :=
  { st with
    cells := Memory.write st.cells (cellAddr chain e.len) (.make c err)
    slots := st.slots.set i (some { e with len := e.len + 1, chain := chain }) }

/-- R136: the store's answer to a cell; `grew` says that a block was allocated. -/
inductive WriteAnswer where
  | written (grew : Bool)
  | exhausted
  deriving DecidableEq, Repr

/-- R136: a cell is written to an OPEN entry; one that is not OPEN takes no cell (R139). -/
def Store.writeCell (st : Store) (i : Nat) (c : Code) (err : Bool) : Store × WriteAnswer :=
  match st.entry i with
  | none => (st, .exhausted)
  | some e =>
    if e.state != .opened then (st, .exhausted)
    else if e.len < Config.blockCells * e.chain.length then (st.append i e e.chain c err, .written false)
    else if Config.blocks ≤ e.chain.length then (st, .exhausted)
    else
      let t := Store.reclaimUntil Store.blockFree Config.slots st
      match t.alloc with
      | none => (t, .exhausted)
      | some (b, u) => (u.append i e (e.chain ++ [b]) c err, .written true)

/-- R137: whether an open entry can grow by `n` cells; nothing is reserved. -/
def Store.canGrow (st : Store) (i n : Nat) : Bool :=
  match st.entry i with
  | none => false
  | some e =>
    let reclaim := (st.order.map fun j => (st.entry j).elim 0 fun f => if f.reclaimable then f.chain.length else 0).sum
    let room := Config.blockCells * e.chain.length - e.len + Config.blockCells * st.free.length
      + Config.blockCells * reclaim
    n ≤ room && e.len + n ≤ Config.blockCells * Config.blocks

/-- What a read returns (R128): code, error mark, parity error. -/
structure CellRead where
  code : Code
  err : Bool
  bad : Bool
  deriving DecidableEq, Repr

/-- R127, R128: what a read of the cell at an offset returns. -/
def Store.peek (st : Store) (e : DirEntry) (off : Nat) : CellRead :=
  let c := Memory.read st.cells (cellAddr e.chain off)
  ⟨c.code, c.err || !c.good, !c.good⟩

/-- R128: a read; a parity error marks the entry DAMAGED and sets the STORE-FAULT latch. -/
def Store.readCell (st : Store) (i off : Nat) : Store × CellRead :=
  match st.entry i with
  | none => (st, ⟨0, true, false⟩)
  | some e =>
    let r := st.peek e off
    if r.bad then ({ st.modify i fun e => { e with damaged := true } with fault := true }, r) else (st, r)

/-! ### Received entries (R138 to R140, R146, R147) -/

/-- Apply `f` to every entry that `p` picks. -/
def Store.mapWhere (st : Store) (p : DirEntry → Bool) (f : DirEntry → DirEntry) : Store :=
  { st with slots := st.slots.map (Option.map fun e => if p e then f e else e) }

/-- The entry is an OPEN RECEIVED one. -/
def DirEntry.openReceived (e : DirEntry) : Bool := e.kind = .received && e.state = .opened

/-- R139: a close with an outcome. -/
def DirEntry.close (o : CallOutcome) (e : DirEntry) : DirEntry := { e with state := .closed, outcome := some o }

/-- R139: CALL-END closes every OPEN RECEIVED entry of the serial. -/
def Store.closeCall (st : Store) (serial : Nat) (o : CallOutcome) : Store :=
  st.mapWhere (fun e => e.openReceived && e.serial = serial) (DirEntry.close o)

/-- R139: the writer's close; a CLOSED entry is left as it is. -/
def Store.closeEntry (st : Store) (i : Nat) (o : CallOutcome) : Store :=
  st.modify i fun e => if e.openReceived then e.close o else e

/-- R138: the call's doubtful mark becomes set. -/
def Store.markDoubtful (st : Store) (serial : Nat) : Store :=
  st.mapWhere (fun e => e.openReceived && e.serial = serial) fun e => { e with doubtful := true }

/-- R147. -/
def Store.keepCall (st : Store) (serial : Nat) : Store :=
  { st.mapWhere (fun e => e.kind = .received && e.serial = serial) (fun e => { e with kept := true }) with
    note := some serial }

/-- R140, R146: PRINTED; the entry is kept or deleted. -/
def Store.printed (st : Store) (keepPrinted : Bool) (i : Nat) : Store :=
  match st.entry i with
  | none => st
  | some e => if e.kept || keepPrinted then st.modify i (fun e => { e with print := .printed }) else st.remove i

/-! ### Prepared and held entries (R141 to R145) -/

/-- R141: the END-MARKER closes the open entry. -/
def Store.finishPrepared (st : Store) (i : Nat) : Store :=
  st.modify i fun e =>
    match e.kind with
    | .prepared => { e with state := .ready, attempts := 0, retry := none }
    | .held => { e with state := .readyHeld }
    | .received => e

/-- R142: the Sender takes the entry. -/
def Store.takeOutbound (st : Store) (i : Nat) : Store :=
  st.modify i fun e => { e with state := .sending, sending := none }

/-- R142: the entry's job goes back to its source. -/
def Store.returnOutbound (st : Store) (i : Nat) : Store :=
  st.modify i fun e => if e.state = .sending then { e with state := .ready, sending := none } else e

/-- R131, R142: the sending serial of an entry in SENDING is recorded or cleared. An entry that a CALL-END has settled has
none, and one in DELIVERING keeps its POLL call's (R145). -/
def Store.setSending (st : Store) (i : Nat) (serial : Option Nat) : Store :=
  st.modify i fun e => if e.state = .sending then { e with sending := serial } else e

/-- R143: the settlement by an outcome. DESIGN CHOICE (log 47): NOT-SERVED, which R143's table has no row for, counts as a
failed attempt. -/
def Store.settle (st : Store) (i : Nat) (o : CallOutcome) : Store :=
  match st.entry i with
  | none => st
  | some e =>
    if o = .complete then
      (if e.kept then st.modify i (fun e => { e with state := .sent, sending := none }) else st.remove i)
    else if e.attempts < 3 then
      st.modify i fun e =>
        { e with state := .ready, attempts := e.attempts + 1, retry := some Config.retryTicks, sending := none }
    else st.modify i fun e => { e with state := .failed, attempts := 4, retry := none, sending := none }

/-- R143: the entry that a CALL-END settles. -/
def Store.settledBy (st : Store) (serial : Nat) : Option Nat :=
  st.order.find? fun i =>
    (st.entry i).any fun e => e.kind = .prepared && e.state = .sending && e.sending = some serial

/-- R145: the Answering Unit takes an entry for delivery. -/
def Store.takeHeld (st : Store) (i serial : Nat) : Store :=
  st.modify i fun e => { e with state := .delivering, sending := some serial }

/-- R145, R146: a delivery result. -/
def Store.delivered (st : Store) (i : Nat) (complete : Bool) : Store :=
  match st.entry i with
  | none => st
  | some e =>
    if complete then
      (if e.kept then st.modify i (fun e => { e with state := .delivered, sending := none }) else st.remove i)
    else st.modify i fun e => { e with state := .readyHeld, sending := none }

/-- R144: one tick of every running retry timer. -/
def Store.tick (st : Store) : Store :=
  st.mapWhere (fun _ => true) fun e => { e with retry := timerTick e.retry }

/-! ### The service port's commands (R148) -/

/-- R132: a finished entry. -/
def DirEntry.finished (e : DirEntry) : Bool :=
  match e.kind with
  | .received => e.print = .printed
  | .prepared => e.state = .sent
  | .held => e.state = .delivered

/-- R148: DELETE is refused for an entry in use. -/
def DirEntry.busy (e : DirEntry) : Bool := e.state = .opened || e.state = .sending || e.state = .delivering

/-- R146, R148: RELEASE. -/
def Store.release (st : Store) (keepPrinted : Bool) (i : Nat) : Store :=
  match st.entry i with
  | none => st
  | some e =>
    if e.kept && e.finished && !(e.kind = .received && keepPrinted) then st.remove i
    else st.modify i fun e => { e with kept := false }

/-! ### Reset (R149) -/

/-- R149: an entry that a pin or service reset discards. -/
def DirEntry.discarded (e : DirEntry) : Bool := e.kind != .received && e.state = .opened

/-- R149: what a pin or service reset makes of an entry. DESIGN CHOICE (log 37): a retry timer that has reached 0, its
expiry not yet taken, is still running, and starts again. -/
def DirEntry.afterReset (e : DirEntry) : DirEntry :=
  match e.kind with
  | .received =>
    let e := if e.state = .opened then e.close .incomplete else e
    if e.print = .printing then { e with print := .waiting, printPos := 0 } else e
  | .prepared =>
    if e.state = .sending then { e with state := .ready, sending := none }
    else if e.state = .ready then { e with retry := e.retry.map fun _ => Config.retryTicks }
    else e
  | .held => if e.state = .delivering then { e with state := .readyHeld, sending := none } else e

/-- R149: the RESET pin and the service reset. -/
def Store.afterReset (st : Store) : Store :=
  let open_ := st.listOf DirEntry.discarded
  let t := open_.foldl Store.remove st
  { t with
    slots := t.slots.map (Option.map DirEntry.afterReset)
    high := t.free.length ≤ Config.highMark
    fault := false
    hold := false
    note := none }

end Sys2Proof.Machine
end

