-- ==== Sys2Proof/Machine/PrintOps.lean ====
section
/-! DEFINITION. The Print Controller's own operations (chapter 5), on the printer alone. -/

namespace Sys2Proof.Machine

/-! ### Readiness and motor (R105, R108) -/

/-- R105: the printer is ready. -/
def Printer.ready (p : Printer) : Bool := !p.paper.on && !p.fault.on && p.motor != .fault

/-- R103, R106, R107: PAPER OUT or FAULT holds the printer. -/
def Printer.held (p : Printer) : Bool := p.paper.on || p.fault.on

/-- R108: something is due. -/
def Printer.due (p : Printer) : Bool :=
  !p.queue.isEmpty || p.active.isSome || p.next.isSome || p.ring || !p.homing.isEmpty || p.homeAtSpeed

/-- R108: the motor enters STARTING. AT-SPEED counts only as read from here on. -/
def Printer.startMotor (p : Printer) : Printer :=
  { p with motor := .starting, startCount := 0, atSpeed := false, runOut := false, runOn := 0, stopMet := false }

/-- R108: the motor leaves STOPPED when something is due while PAPER OUT and FAULT are clear. -/
def Printer.kick (p : Printer) : Printer :=
  if p.motor = .stopped && p.due && !p.held then p.startMotor else p

/-- R108: a start attempt, which also leaves MOTOR-FAULT. -/
def Printer.attempt (p : Printer) : Printer := if p.motor = .fault then p.startMotor else p.kick

/-- R108, R178: MOTOR-START. -/
def Printer.motorStart (p : Printer) : Printer :=
  match p.motor with
  | .stopped => { p with stopReq := false }.startMotor
  | .fault => { p with stopReq := false }.startMotor
  | .starting => { p with stopReq := false, stopMet := false, runOn := 0, runOut := false }
  | .running => { p with stopReq := false, stopMet := false, runOn := 0, runOut := false }

/-- R109, R178: MOTOR-STOP. -/
def Printer.motorStop (p : Printer) : Printer :=
  if p.motor = .starting || p.motor = .running then { p with stopReq := true } else p

/-- R109: the motor stops; R108 starts it again when something is due. -/
def Printer.stopMotor (p : Printer) : Printer :=
  { p with motor := .stopped, stopReq := false, stopMet := false, runOut := false, runOn := 0,
           startCount := 0, atSpeed := false }.kick

/-- R104, R178: RING. DESIGN CHOICE (log 40): it is a start attempt (R108) also where the ring request is set already. -/
def Printer.ringBell (p : Printer) : Printer := { p with ring := true }.attempt

/-! ### The queue and the enqueue right (R90 to R95) -/

/-- R90: places free. -/
def Printer.places (p : Printer) : Nat := Config.printQueue - p.queue.length

/-- R90, R108: an item joins at the tail, which is a start attempt. -/
def Printer.join (p : Printer) (it : PItem) : Printer :=
  if 0 < p.places then { p with queue := p.queue ++ [it] }.attempt else p

/-- R93: the LINE holding of a serial ends: its MESSAGE-END joins and the right is FREE. -/
def Printer.endLine (p : Printer) (serial : Nat) : Printer :=
  if p.right = .line serial then { p.join (.finish (.line serial)) with right := .free } else p

/-- R92: a LINE grant would be made. -/
def Printer.lineGrantable (p : Printer) (printListEmpty : Bool) : Bool :=
  p.ready && printListEmpty && 2 ≤ p.places &&
    (match p.right with | .drain _ => false | _ => true)

/-- R92: a LINE grant; an earlier LINE holding is closed first. DESIGN CHOICE (log 30): with two places free before that
close, the MESSAGE-START takes the last place, and a MESSAGE-END that later finds none does not join. -/
def Printer.grantLine (p : Printer) (serial : Nat) : Printer :=
  let p := match p.right with
    | .line old => p.endLine old
    | _ => p
  { p.join (.start (.line serial) false) with right := .line serial }

/-- R93: a text code offered under the LINE holding; none is the answer FULL. -/
def Printer.offerLine (p : Printer) (serial : Nat) (c : Code) (err : Bool) (k : Case) : Option Printer :=
  if p.right = .line serial && 2 ≤ p.places then some (p.join (.code c err k .line)) else none

/-- R94: LOCAL is granted. -/
def Printer.grantLocal (p : Printer) : Printer := { p with right := .loc, localIdle := 0 }

/-- R94: LOCAL takes a CODE entry. -/
def Printer.takeLocal (p : Printer) (c : Code) (k : Case) : Printer :=
  { p.join (.code c false k .loc) with localIdle := 0 }

/-! ### Draining (R95 to R98) -/

/-- R95: DRAIN is granted for the entry `i`, which is marked CONTINUED or not, stands at print position `pos`, and has
`resumeCase` as the case its first `pos` cells leave. -/
def Printer.grantDrain (p : Printer) (i : Nat) (continued : Bool) (pos : Nat) (resumeCase : Case) : Printer :=
  let p := { p with right := .drain i }
  if p.drain = some i then
    if p.resume then
      { p.join (.start (.drain i) false) with
        readPos := pos, formedPos := pos, resume := false, endJoined := false, pcase := resumeCase }
    else p
  else
    { p.join (.start (.drain i) continued) with
      drain := some i, readPos := 0, formedPos := 0, resume := false, endJoined := false, pcase := .low }

/-- The item is a DRAIN item of the entry `i`: a marker of it, or a cell, since only one entry's cells are in the queue at
a time. -/
def PItem.isDrainOf (i : Nat) : PItem → Bool
  | .code _ _ _ (.drain _) => true
  | .code _ _ _ .line => false
  | .code _ _ _ .loc => false
  | .start (.drain j) _ => j = i
  | .start (.line _) _ => false
  | .finish (.drain j) => j = i
  | .finish (.line _) => false

/-- R98, R107: every DRAIN item of the entry `i` leaves the queue; one partly formed at the head loses its remaining
commands. -/
def Printer.dropDrainItems (p : Printer) (i : Nat) : Printer :=
  { p with
    queue := p.queue.filter (!·.isDrainOf i)
    part := if p.queue.head?.any (·.isDrainOf i) then [] else p.part }

/-- R97, R98: the drain record names no entry any more and its holding ends; formed commands go on. -/
def Printer.clearDrain (p : Printer) : Printer :=
  { p with
    drain := none, readPos := 0, resume := false, formedPos := 0, endJoined := false
    right := match p.right with
      | .drain _ => .free
      | r => r
    active := p.active.map fun g => { g with cell := none }
    next := p.next.map fun g => { g with cell := none } }

/-- R98: the drain record's entry `i` left the print list: its items leave the queue. -/
def Printer.loseDrain (p : Printer) (i : Nat) : Printer := (p.dropDrainItems i).clearDrain

/-- R107: the drain is rolled back to the entry's print position. -/
def Printer.rollback (p : Printer) (pos : Nat) : Printer :=
  match p.drain with
  | some i => { p.dropDrainItems i with readPos := pos, formedPos := pos, resume := true, endJoined := false }
  | none => p

/-- R107, R108: both stages are abandoned and the drain rolled back. -/
def Printer.abandon (p : Printer) (pos : Nat) : Printer :=
  { p with active := none, next := none }.rollback pos

/-- R105: a DRAIN holding ends when the printer is not ready. -/
def Printer.endDrainHolding (p : Printer) : Printer :=
  match p.right with
  | .drain _ => { p with right := .free }
  | _ => p

/-- R97: the leading cells of the drained entry that are complete: those that left the queue before the oldest command
still in a stage (log 17). -/
def Printer.completePos (p : Printer) : Nat :=
  match p.active.bind Stage.cell, p.next.bind Stage.cell with
  | some k, _ => k
  | none, some k => k
  | none, none => p.formedPos

/-- The item is a MESSAGE-START of DRAIN. -/
def PItem.isDrainStart : PItem → Bool
  | .start (.drain _) _ => true
  | .start (.line _) _ => false
  | .code _ _ _ _ => false
  | .finish _ => false

/-- R139: no MESSAGE-START of DRAIN waits in the queue, and no command of a DRAIN item in a stage. -/
def Printer.startDone (p : Printer) : Bool :=
  !p.queue.any PItem.isDrainStart && (p.active.bind Stage.cell).isNone && (p.next.bind Stage.cell).isNone

/-- R97: the MESSAGE-END of an entry of `len` cells, of which `pos` are complete, is complete. DEDUCED (log 17): that of an
entry with no text when its MESSAGE-START is printed (R139). -/
def Printer.endComplete (p : Printer) (len pos : Nat) : Bool :=
  p.endJoined && pos = len && (len != 0 || p.startDone)

/-! ### Forming commands (R99 to R104) -/

/-- R100, R102: the commands that bring an over-width carriage to a new line, with ANL on. -/
def Printer.newLine (p : Printer) (anl : Bool) : List PCmd :=
  if anl && p.width < p.column then [.ret p.width, .feed] else []

/-- R101: RETURN to the margin, none when the column is 1. -/
def Printer.returnCmd (p : Printer) : List PCmd := if 1 < p.column then [.ret (p.column - 1)] else []

/-- Wheel position of a glyph (section 3.1). -/
def wheelOf (k : Case) (c : Code) : Nat :=
  match k with
  | .low => c.toNat
  | .high => 32 + c.toNat

/-- R100, R101, R102: the commands of an item, the column being as it stands. -/
def Printer.itemCmds (p : Printer) (anl : Bool) (it : PItem) : List PCmd :=
  match it with
  | .start _ true => []
  | .start _ false => p.returnCmd ++ [.feed]
  | .finish _ => []
  | .code c err k _ =>
    if err then p.newLine anl ++ [.strike 0]
    else if c = 5 then (if !anl && p.width < p.column then [] else p.newLine anl ++ [.advance])
    else if c = 9 then p.returnCmd
    else if c = 18 then [.feed]
    else if caseless c then []
    else if k = .high && c = 25 then [.bell]
    else if k = .high && (c = 22 || c = 29 || c = 30) then []
    else p.newLine anl ++ [.strike (wheelOf k c)]

/-- R99: the column after a command. -/
def Printer.columnAfter (p : Printer) : PCmd → Nat
  | .strike _ => min (p.column + 1) (p.width + 1)
  | .advance => min (p.column + 1) (p.width + 1)
  | .ret _ => 1
  | .feed => p.column
  | .bell => p.column

/-- R103: a command in the active stage is issued when the motor is RUNNING and nothing holds the printer. -/
def Printer.issue (p : Printer) : Printer :=
  if p.motor = .running && !p.held then { p with active := p.active.map fun g => { g with issued := true } } else p

/-- R103: a formed command enters a stage and moves the column (R99). -/
def Printer.place (p : Printer) (c : PCmd) (cell : Option Nat) : Printer :=
  let q := { p with column := p.columnAfter c }
  if p.active.isNone then { q with active := some ⟨c, false, cell⟩ }.issue
  else { q with next := some ⟨c, false, cell⟩ }

/-- The cell that a command of a DRAIN item belongs to: the item's own, or for a MESSAGE-START the first one to be
drained after it, since no later cell is complete before it (R97, log 17). -/
def Printer.itemCell (p : Printer) : PItem → Option Nat
  | .code _ _ _ (.drain k) => some k
  | .start (.drain i) _ => if p.drain = some i then some p.formedPos else none
  | _ => none

/-- R101: the head item leaves the queue. -/
def Printer.popHead (p : Printer) : Printer :=
  match p.queue with
  | [] => p
  | it :: rest =>
    let p := { p with queue := rest }
    match it with
    | .code _ _ _ (.drain k) => { p with formedPos := k + 1 }
    | _ => p

/-- R103: a stage can take a command. -/
def Printer.stageFree (p : Printer) : Bool := p.active.isNone || p.next.isNone

/-- R101, R103, R104, R106 to R108: a stage can take a command and nothing holds the forming. PAPER OUT holds the queue
and the ring request, and no homing. DESIGN CHOICE (log 57): a head item that forms no command waits for this too, and so
stays in the queue while both stages are occupied. DESIGN CHOICE (log 58): MOTOR-FAULT by itself bars no forming, so that
free stages are filled there. -/
def Printer.canForm (p : Printer) : Bool :=
  p.stageFree && !p.fault.on && !p.homeAtSpeed && (!p.paper.on || !p.homing.isEmpty)

/-- R101, R104, R107: something waits to be formed. -/
def Printer.toForm (p : Printer) : Bool := !p.homing.isEmpty || !p.part.isEmpty || p.ring || !p.queue.isEmpty

/-- R101, R104, R107: one command is formed, from a homing, the head item's remaining commands, the ring request or the
head item, in that order; or a head item that forms none leaves the queue. DESIGN CHOICE (log 46): the ring request waits
for the remaining commands of a head item already begun. -/
def Printer.form (p : Printer) (anl : Bool) : Printer :=
  match p.homing with
  | c :: cs => { p with homing := cs }.place c none
  | [] =>
    match p.part with
    | c :: cs =>
      let q := { p with part := cs }.place c (p.queue.head?.bind p.itemCell)
      if cs.isEmpty then q.popHead else q
    | [] =>
      if p.ring then { p with ring := false }.place .bell none
      else
        match p.queue with
        | [] => p
        | it :: _ =>
          match p.itemCmds anl it with
          | [] => p.popHead
          | c :: cs =>
            let q := { p with part := cs }.place c (p.itemCell it)
            if cs.isEmpty then q.popHead else q

/-- R107, R110: the homing: RETURN of the full width, then FEED 1. -/
def Printer.homingCmds (p : Printer) : List PCmd := [.ret p.width, .feed]

/-- R107: the next command of the homing goes into a stage, if one is free. -/
def Printer.formHoming (p : Printer) : Printer :=
  match p.homing with
  | c :: cs => if p.stageFree then { p with homing := cs }.place c none else p
  | [] => p

/-- R107, R108, R110: a homing is formed: its two commands go into the stages as far as these are free. -/
def Printer.home (p : Printer) : Printer := { p with homing := p.homingCmds }.formHoming.formHoming

/-- R103: the active stage holds an issued command. -/
def Printer.issued (p : Printer) : Bool := p.active.any Stage.issued

/-- R103: DONE: the next command moves up and is issued under the same conditions. -/
def Printer.done (p : Printer) : Printer := { p with active := p.next, next := none }.issue

/-- R110: step 5 of start-up forms the homing, unless a recovery homing takes its place (R107, R108, log 29). -/
def Printer.startHoming (p : Printer) : Printer :=
  if p.fault.on || p.homeAtSpeed then p else p.home.kick

/-! ### One tick (R105, R108, R109) -/

/-- R109: the run-on length for a position of the ATTENDED switch. -/
def runOnLength (attended : Bool) : Nat := if attended then Config.runOnAttended else Config.runOnUnattended

/-- R109: the run-on count after a tick. -/
def Printer.runOnNext (p : Printer) : Nat :=
  if p.active.isNone && (!p.due || p.held) then p.runOn + 1 else 0

/-- R105, R108, R109: the inputs are read and the motor's counts run. DESIGN CHOICE (log 51): the run-on count of a tick
is judged with PAPER OUT and FAULT as they were debounced before this tick's reading. -/
def Printer.tick (p : Printer) (attended paperOut fault atSpeed : Bool) : Printer :=
  let p := { p with paper := p.paper.read paperOut, fault := p.fault.read fault }
  match p.motor with
  | .starting =>
    { p with
      startCount := p.startCount + 1, atSpeed := atSpeed
      stopMet := p.stopReq && p.queue.isEmpty && p.active.isNone && p.next.isNone && !p.ring }
  | .running =>
    { p with
      atSpeed := atSpeed, runOn := p.runOnNext, runOut := runOnLength attended ≤ p.runOnNext
      stopMet := p.stopReq && p.queue.isEmpty && p.active.isNone && p.next.isNone && !p.ring }
  | .stopped => p
  | .fault => p

end Sys2Proof.Machine
end

