-- ==== Sys2Proof/Machine/PunchOps.lean ====
section
/-! DEFINITION. The Punch Controller's own operations (chapter 6), on the punch alone. An operation that reports punch
results to the Call Tracker (R125) returns the serials it reports INCOMPLETE. -/

namespace Sys2Proof.Machine

/-- R123: the link condition TAPE. -/
def Punch.tape (p : Punch) : Bool := !p.low.on && !p.out.on

/-- R113: IDLE, BUSY or OFFLINE. -/
inductive PunchState where
  | idle | busy | offline
  deriving DecidableEq, Repr

/-- R113. -/
def Punch.state (p : Punch) : PunchState :=
  if p.out.on then .offline
  else if p.own.isSome || !p.queue.isEmpty || p.active.isSome || p.next.isSome then .busy
  else .idle

/-! ### Joining and staging (R112, R116, R118, R122) -/

/-- Places free in the punch queue. -/
def Punch.places (p : Punch) : Nat := Config.punchQueue - p.queue.length

/-- R113, R116, R118: waiting leader or trailer rows join as places allow; the owner is NONE when the last trailer row
has joined. -/
def Punch.joinWaiting (p : Punch) : Punch :=
  match p.own with
  | none => p
  | some o =>
    match o.phase with
    | .leader =>
      let n := min o.leader p.places
      { p with
        queue := p.queue ++ List.replicate n ⟨0, .leader, o.tag⟩
        own := some { o with leader := o.leader - n, phase := if o.leader - n = 0 then .text else .leader } }
    | .text => p
    | .trailer =>
      let n := min o.trailer p.places
      { p with
        queue := p.queue ++ List.replicate n ⟨0, .trailer, o.tag⟩
        own := if o.trailer - n = 0 then none else some { o with trailer := o.trailer - n } }

/-- R122: the head row moves into the active stage, issued at once, or else into the next stage. -/
def Punch.stageOne (p : Punch) : Punch :=
  if p.out.on then p
  else
    match p.queue with
    | [] => p
    | r :: rest =>
      if p.active.isNone then { p with queue := rest, active := some r, strobe := true }
      else if p.next.isNone then { p with queue := rest, next := some r }
      else p

/-- Waiting rows join, the stages fill, and waiting rows take the places freed. -/
def Punch.pump (p : Punch) : Punch := p.joinWaiting.stageOne.stageOne.joinWaiting

/-- R116: an ownership begins with its leader. -/
def Punch.begin (p : Punch) (tag : Tag) : Punch :=
  { p with own := some ⟨tag, .leader, Config.leaderRows, 0, false, 0⟩ }.pump

/-- R118, R120: a release: the leader still waiting is dropped and the trailer begins. DESIGN CHOICE (log 53): a second
cause of release finds a KEYBOARD ownership in TRAILER and changes nothing. -/
def Punch.release (p : Punch) : Punch :=
  match p.own with
  | none => p
  | some o =>
    if o.phase = .trailer then p
    else { p with own := some { o with phase := .trailer, leader := 0, trailer := Config.leaderRows } }.pump

/-! ### Offering text (R112, R117, R119) -/

/-- R112: the queue is full for `n` TEXT rows. -/
def Punch.fullFor (p : Punch) (n : Nat) : Bool :=
  p.places < n || p.own.any fun o => o.leader != 0

/-- A TEXT row. -/
def textRow (t : Tag) (c : Code) : Row := ⟨c, .text, t⟩

/-- R117: TEXT rows of the owner, all or none; an overflow sets the cut mark. The second part says that the cut mark
was set here. -/
def Punch.offer (p : Punch) (cs : List Code) : Punch × Bool :=
  match p.own with
  | none => (p, false)
  | some o =>
    if o.phase = .trailer || o.cut then (p, false)
    else if p.fullFor cs.length then ({ p with own := some { o with cut := true } }, true)
    else ({ p with queue := p.queue ++ cs.map (textRow o.tag) }.pump, false)

/-- The punch is owned by the call and still takes its text: between the two reports of R113. -/
def Punch.ownedByCall (p : Punch) (serial : Nat) : Bool :=
  p.own.any fun o => o.tag = .call serial && o.phase != .trailer

/-- R119: the codes that a keyboard offer gives: the shift that its case needs, then the code. -/
def kbPunchCodes (k : Case) (code : Code) (kcase : Option Case) : List Code :=
  match kcase with
  | some c => if c = k then [code] else [shiftCode c, code]
  | none => [code]

/-- R119: a code of a LOCAL or PREPARE entry is offered. -/
def Punch.offerKeyboard (p : Punch) (usos : Bool) (code : Code) (kcase : Option Case) : Punch :=
  let p := if p.own.isNone && p.tape then { p with kbCase := .low }.begin .keyboard else p
  match p.own with
  | none => p
  | some o =>
    if o.tag = .keyboard && o.phase != .trailer then
      let cs := kbPunchCodes p.kbCase code kcase
      let q := (p.offer cs).1
      { q with
        kbCase := cs.foldl (trackCase usos) p.kbCase
        own := q.own.map fun o => { o with idle := 0 } }
    else p

/-! ### Ends (R121, R124, R125) -/

/-- The call of a tag. -/
def Tag.serial? : Tag → Option Nat
  | .call n => some n
  | .keyboard => none

/-- R121, R124: the calls reported INCOMPLETE when the ownership ends at once and the rows `rs` are lost. -/
def Punch.lostCalls (p : Punch) (rs : List Row) : List Nat :=
  ((p.own.toList.filter fun o => o.phase != .trailer).map Ownership.tag
    ++ (rs.filter fun r => r.kind = .text).map Row.tag).filterMap Tag.serial?

/-- R121: the move to OFF; the issued row runs on. -/
def Punch.switchOff (p : Punch) : Punch × List Nat :=
  ({ p with own := none, queue := [], next := none }, p.lostCalls (p.queue ++ p.next.toList))

/-- R124: TAPE-OUT; the active row is abandoned too. -/
def Punch.tapeOut (p : Punch) : Punch × List Nat :=
  ({ p with own := none, queue := [], next := none, active := none, strobe := false },
    p.lostCalls (p.queue ++ p.next.toList ++ p.active.toList))

/-- R111, R122: DONE: the row is complete, the next moves up (strobed from the next tick) and the stage refills. DESIGN
CHOICE (log 35): the input names no row, so a late DONE of an abandoned row (R124, R126) is the new active row's. -/
def Punch.done (p : Punch) : Punch :=
  if p.active.isNone then p
  else if p.next.isNone then { p with active := none, strobe := false }.pump
  else { p with active := p.next, next := none, strobe := false }.pump

/-! ### One tick (R111, R120, R123, R126) -/

/-- R126: the first reading after release gives the tape states; R123: later ones are debounced. R120: the keyboard
idle count, which stands in TRAILER (DESIGN CHOICE, log 53). R111: a row issued at a DONE is strobed. -/
def Punch.tick (p : Punch) (tapeLow tapeOut : Bool) : Punch :=
  let p :=
    if p.fresh then { p with low := ⟨tapeLow, 0⟩, out := ⟨tapeOut, 0⟩, fresh := false }
    else { p with low := p.low.read tapeLow, out := p.out.read tapeOut }
  { p with
    strobe := p.active.isSome
    own := p.own.map fun o =>
      if o.tag = .keyboard && o.phase != .trailer then { o with idle := o.idle + 1 } else o }

/-- R120: the keyboard idle count is spent. -/
def Punch.keyboardIdle (p : Punch) : Bool :=
  p.own.any fun o => o.tag = .keyboard && o.phase != .trailer && Config.keyboardIdleTicks ≤ o.idle

/-- R126: the calls whose punch result a pin or service reset makes INCOMPLETE. -/
def Punch.resetCalls (p : Punch) : List Nat :=
  p.lostCalls (p.queue ++ p.next.toList ++ p.active.toList)

end Sys2Proof.Machine
end

