-- ==== Sys2Proof/Machine/Flags.lean ====
section
/-! DEFINITION. What is computed from the state: REST element count, LOCAL LOOP, LQ, link conditions, drive outputs,
lamps, the status byte and ALERT. -/

namespace Sys2Proof.Machine

/-! ### Line -/

/-- Start-up is complete (R187). -/
def State.complete (s : State) : Bool := s.loader.phase = .complete

/-- Line functions are enabled: the timebase runs (R2). -/
def State.enabled (s : State) : Bool := s.liu.divisor.isSome

/-- R8: whole elements of Z since recognition, up to 255; 0 while REST does not hold. -/
def State.restCount (s : State) : Nat :=
  if s.liu.rest then (min s.liu.quiet Config.quietCeiling - Config.restSamples) / Config.elementSamples else 0

/-- RATE was sampled invalid at this reset's release (R2). -/
def State.rateInvalid (s : State) : Bool :=
  s.loader.phase != .inReset && (rateDivisor s.loader.straps.rate).isNone

/-- R14, R16: LOCAL LOOP. -/
def State.localLoop (s : State) : Bool := s.liu.faultLatch || s.rateInvalid

/-- R41: a destination that is neither 31/31 nor an own group code. -/
def State.individualDest (s : State) (d : StationCode) : Bool := d != .all && !s.loader.groups.contains d

/-- R3: drive-P. -/
def Liu.driveP (l : Liu) : Bool :=
  match l.drive with
  | .off => false
  | .burst => true
  | .sending => l.elem.any fun e => e.level = .p

/-- R3: drive-N. -/
def Liu.driveN (l : Liu) : Bool :=
  match l.drive with
  | .sending => l.elem.any fun e => e.level = .n
  | _ => false

/-- R37: LQ from the two flags. -/
def Quality.lq (q : Quality) : LQ :=
  if q.coarse.flag then .poor else if q.fine.flag then .fair else .good

/-- R42, R61, R186: the configuration image is invalid. -/
def State.imageInvalid (s : State) : Bool := s.loader.config.any (· != .valid)

/-- The station holds a call in this role. -/
def State.roleIs (s : State) (r : Role) : Bool := s.tracker.call.any fun c => c.log.role = r

/-- R92: a disposition is awaited. -/
def State.awaited (s : State) : Bool := s.answer.disp.any fun d => d.state = .awaited

/-- R41: the job that is sending, yielding or watching serves the held call (R65, R67). -/
def State.jobServes (s : State) : Bool :=
  s.sender.phase != .idle && s.sender.phase != .waitGuard &&
    (match s.tracker.call, s.sender.job with
     | some c, some j => j.callSerial = some c.log.serial
     | _, _ => false)

/-- R67: the Sender is driving. -/
def SenderPhase.driving : SenderPhase → Bool
  | .lead => true
  | .header => true
  | .window => true
  | .text => true
  | .stopping => true
  | _ => false

/-! ### Link conditions (R175) -/

def State.condHolds (s : State) (c : BitVec 4) : Bool :=
  match c.toNat with
  | 0 => true
  | 1 => s.kbd.attended.pos
  | 2 => !s.kbd.attended.pos
  | 3 => !s.printer.paper.on
  | 4 => s.printer.paper.on
  | 5 => s.punch.tape
  | 6 => !s.punch.tape
  | 7 => s.quality.lq = .good
  | 8 => s.quality.lq != .good
  | 9 => !s.kbd.attended.pos && !s.printer.paper.on
  | 10 => !s.kbd.attended.pos && s.punch.tape
  | 11 => !s.printer.paper.on && s.quality.lq = .good
  | 12 => Config.highMark < s.store.free.length
  | 13 => s.printer.paper.on || s.quality.lq != .good
  | _ => false

/-! ### WATCH (R168) -/

/-- The six conditions. -/
def State.watchConditions (s : State) : Bool :=
  !s.kbd.attended.pos && s.tracker.call.isNone && (s.printer.motor = .stopped || s.printer.motor = .fault) &&
    s.punch.own.isNone && s.punch.state != .busy && s.kbd.queue.isEmpty &&
    (s.store.outboundList.all fun i => (s.store.entry i).all fun e => e.retry.isSome)

/-! ### Lamps (R183: five are lamps only with the SVC latch clear) -/

/-- R8, R17. DESIGN CHOICE (log 42): lit already between the release of a reset and the first sample. -/
def State.lineBusy (s : State) : Bool := s.enabled && !s.liu.rest

/-- R183: the LINE-BUSY lamp. -/
def State.lineBusyLamp (s : State) : Bool := !s.loader.svc && s.lineBusy

/-- R31. -/
def State.errorLamp (s : State) : Bool := !s.loader.svc && s.quality.errLamp.isSome

/-- R168. -/
def State.watchLamp (s : State) : Bool := !s.loader.svc && s.answer.watch

/-- R2, R186. -/
def State.configLamp (s : State) : Bool :=
  !s.loader.svc && s.complete && (if s.rateInvalid then s.loader.flashLit else s.imageInvalid)

/-- R183. -/
def State.callLamp (s : State) : Bool := !s.loader.svc && s.tracker.call.isSome

/-- R75. -/
def State.lockLamp (s : State) : Bool := s.kbd.locked || s.kbd.lockTimer.isSome

/-- R82. -/
def State.seqLamp (s : State) : Bool := s.kbd.seq

/-- R103. -/
def State.printerBusyLamp (s : State) : Bool := s.printer.active.isSome

/-- R179. -/
def State.alarmOutput (s : State) : Bool := s.links.alarm.isSome

/-- R108. -/
def State.motorOutput (s : State) : Bool := s.printer.motor = .starting || s.printer.motor = .running

/-- R99, R103: the command that the mechanism has been given. -/
def State.printCommand (s : State) : Option PCmd := (s.printer.active.filter Stage.issued).map Stage.cmd

/-- R111: the punch strobe. -/
def State.punchStrobe (s : State) : Bool := s.punch.strobe && s.punch.active.isSome

/-- R111: the feed hole, driven for every row. DESIGN CHOICE (log 59): while the strobe is released, at a DONE or at
TAPE-OUT (R124), no row is presented and the output is not driven. -/
def State.feedHole (s : State) : Bool := s.punchStrobe

/-- R111: code position k (1 to 5) on the row outputs while the strobe is asserted. DESIGN CHOICE (log 59): while it is
released, at a DONE or at TAPE-OUT (R124), no row is presented and the output is not driven. -/
def State.punchOutput (s : State) (k : Nat) : Bool :=
  s.punchStrobe && s.punch.active.any fun r => r.code.getLsbD (k - 1)

/-! ### Service port (R190, R191) -/

/-- A byte of eight flags, bit 0 first. -/
def flagByte (b0 b1 b2 b3 b4 b5 b6 b7 : Bool) : Byte :=
  ((((((((BitVec.ofBool b7).append (BitVec.ofBool b6)).append (BitVec.ofBool b5)).append (BitVec.ofBool b4)).append
    (BitVec.ofBool b3)).append (BitVec.ofBool b2)).append (BitVec.ofBool b1)).append (BitVec.ofBool b0))

/-- R190: the status flags as they stand, NAK clear. -/
def State.statusByte (s : State) : Byte :=
  flagByte s.port.errFlag s.tracker.call.isSome s.quality.fine.flag s.quality.coarse.flag s.printer.paper.on
    s.punch.out.on s.store.high false

/-- R191: ALERT follows the live flags. -/
def State.alert (s : State) : Bool := (s.statusByte.setWidth 7 &&& s.port.mask) != 0

end Sys2Proof.Machine
end

