-- ==== Sys2Proof/Machine/LinkOps.lean ====
section
/-! DEFINITION. Operations that reach several blocks, from the bottom up: log fields, WATCH, burst requests, creating a
received entry, switch-over (R156), the link actions (R173 to R180), and the raising and taking of link events. -/

namespace Sys2Proof.Machine

/-! ### Call and log -/

/-- Change the held call. -/
def State.modCall (s : State) (f : Call → Call) : State :=
  s.setTracker { s.tracker with call := s.tracker.call.map f }

/-- Change the held call's log record. -/
def State.modLog (s : State) (f : LogRecord → LogRecord) : State :=
  s.modCall fun c => { c with log := f c.log }

/-- R125: a punch result is written; nothing replaces INCOMPLETE. -/
def LogRecord.punched (x : PunchResult) (r : LogRecord) : LogRecord :=
  if r.punch = .incomplete then r else { r with punch := x }

/-- R125: the result goes into the record with that serial, if it is still in the log. -/
def Tracker.setPunch (t : Tracker) (serial : Nat) (x : PunchResult) : Tracker :=
  { t with
    call := t.call.map fun c => if c.log.serial = serial then { c with log := c.log.punched x } else c
    log := t.log.map fun r => if r.serial = serial then r.punched x else r }

/-- R125: INCOMPLETE for each call named. -/
def Tracker.setIncomplete (t : Tracker) (serials : List Nat) : Tracker :=
  serials.foldl (fun t n => t.setPunch n .incomplete) t

/-- R63, R176: the serial of the held call, 0 when none. -/
def State.callSerial (s : State) : Nat := s.tracker.call.elim 0 fun c => c.log.serial

/-- R176: the call that an event names is the one held. -/
def State.holdsCall (s : State) (serial : Option Nat) : Bool :=
  s.tracker.call.any fun c => serial = some c.log.serial

/-! ### WATCH (R169) -/

/-- R169: a waking event: WATCH is left, the count starts again, the scan returns to one row per tick. -/
def State.wake (s : State) : State :=
  let t := s.setAnswer { s.answer with watch := false, watchCount := 0 }
  if s.answer.watch then t.setKbd { s.kbd with scanWait := 0 } else t

/-! ### Break burst (R12) -/

/-- R12: the conditions for a new burst. -/
def State.burstAllowed (s : State) : Bool :=
  !s.liu.rest && s.liu.drive = .off && s.enabled && s.complete && !s.liu.faultLatch

/-- R12: the answer is SENT. -/
def State.burstSent (s : State) : Bool := s.liu.drive = .burst || s.burstAllowed

/-- R12: a burst request: a new burst begins, or joins the one in progress, or nothing is driven. -/
def State.requestBurst (s : State) : State :=
  if s.burstAllowed then s.setLiu { s.liu with drive := .burst, burstN := 0 } else s

/-! ### Disposition (R150 to R157) -/

/-- The disposition record changes; a MESSAGE's recorded value is kept up to date in the log (R160). -/
def State.putDisp (s : State) (d : DispRecord) : State :=
  let t := s.setAnswer { s.answer with disp := some d }
  if d.deliver || d.recorded.isNone then t else t.modLog fun r => { r with disp := d.recorded }

/-- R157, R158: the rest of the message has no place; a CALLED station asks for the overflow break. -/
def State.loseRest (s : State) (d : DispRecord) : State :=
  let t := s.putDisp { d with state := .lost, recorded := some (if d.taken then .partLost else .lost) }
  if s.roleIs .called && !d.deliver then t.requestBurst else t

/-- R134, R138: the Answering Unit asks for a RECEIVED entry for the message; the Call Tracker keeps the first index.
DESIGN CHOICE (log 61): origin and destination are the record's, those of the sending that opened the message, also where
the entry is a CONTINUED one that a switch-over in an ANSWER or CONTINUE of the message creates. -/
def State.createReceived (s : State) (d : DispRecord) (continued : Bool) : State × Option Nat :=
  let doubt := s.tracker.call.any fun c => c.log.doubtful
  let r := s.store.create ⟨.received, d.origin, d.dest, s.callSerial, continued, doubt⟩
  match r.2 with
  | none => (s.setStore r.1, none)
  | some i =>
    ((s.setStore r.1).modLog fun g => { g with dirIndex := g.dirIndex.or (some i) }, some i)

/-- R156: a message in DIRECT switches to spooling. DESIGN CHOICE (log 61): its entry takes the message's origin and
destination, whichever sending is being heard. -/
def State.switchOver (s : State) (d : DispRecord) : State :=
  let s := s.setPrinter (s.printer.endLine s.callSerial)
  let r := s.createReceived d true
  match r.2 with
  | some i =>
    r.1.putDisp { d with state := .spool, entry := some i, recorded := some .split, spoolCase := .low,
                         contFirst := true }
  | none => r.1.loseRest d

/-- R156: the switch-over of the current message, when it is in DIRECT. -/
def State.switchDirect (s : State) : State :=
  match s.answer.disp with
  | some d => if d.state = .direct then s.switchOver d else s
  | none => s

/-! ### Punch claims and codes (R114 to R118) -/

/-- R116: a claim for the held call. -/
def State.claimPunch (s : State) : State :=
  let n := s.callSerial
  if s.punch.own.isNone && s.punch.tape then
    (s.setPunch { s.punch.begin (.call n) with claim := some .made }).modLog (LogRecord.punched .punched)
  else (s.setPunch { s.punch with claim := some .made }).modLog (LogRecord.punched .missed)

/-- R115: PUNCH-CALL. -/
def State.punchCall (s : State) : State :=
  if s.kbd.punchSw.pos = .off || s.punch.claim = some .made then s
  else if s.tracker.call.any Call.textStarted then s.claimPunch
  else s.setPunch { s.punch with claim := some .wanted }

/-- R118: PUNCH-STOP. -/
def State.punchStop (s : State) : State :=
  if s.punch.ownedByCall s.callSerial then s.setPunch s.punch.release
  else
    match s.punch.claim with
    | some .wanted => s.setPunch { s.punch with claim := some .notWanted }
    | some .notWanted => s.setPunch { s.punch with claim := some .made }
    | some .made => s
    | none => s

/-- R117: a text code of the held call is offered to the punch. -/
def State.punchCode (s : State) (c : Code) : State :=
  if s.punch.ownedByCall s.callSerial then
    let r := s.punch.offer [c]
    let t := s.setPunch r.1
    if r.2 then t.modLog (LogRecord.punched .incomplete) else t
  else s

/-! ### Actions (R173 to R180) -/

/-- R159: SPOOL-CALL on the held call. DESIGN CHOICE (log 36): a MESSAGE call whose record a DELIVER replaced, and closed,
takes the spool mark. DESIGN CHOICE (log 48): while a DELIVER's record is open, DIRECT included, the call takes no spool
mark for its later DELIVERs. -/
def State.spoolCall (s : State) : State :=
  match s.answer.disp with
  | some d =>
    match d.state with
    | .direct => s.switchOver d
    | .awaited => s.putDisp { d with spoolMark := true }
    | .spool => s
    | .lost => s
    | .refused => s
  | none =>
    if s.tracker.call.any fun c => c.log.kind = .message || c.log.role = .caller then
      s.setAnswer { s.answer with callSpool := true }
    else s

/-- The sixteen actions; a call action needs the call that the event names to be held (R176). -/
def State.doAction (s : State) (serial : Option Nat) (a : BitVec 4) : State :=
  match a.toNat with
  | 1 => if s.holdsCall serial then s.punchCall else s
  | 2 => if s.holdsCall serial then s.punchStop else s
  | 3 => s.setPrinter s.printer.motorStart
  | 4 => s.setPrinter s.printer.motorStop
  | 5 => if s.holdsCall serial then s.spoolCall else s
  | 6 => if s.holdsCall serial then s.setStore (s.store.keepCall s.callSerial) else s
  | 7 => s.setLinks { s.links with lampA := true }
  | 8 => s.setLinks { s.links with lampA := false }
  | 9 => s.setLinks { s.links with lampB := true }
  | 10 => s.setLinks { s.links with lampB := false }
  | 11 => s.setLinks { s.links with alarm := some Config.alarmTicks }
  | 12 => s.setPrinter s.printer.ringBell
  | 13 => s.setStore { s.store with hold := true }
  | 14 => s.setStore { s.store with hold := false }
  | _ => s

/-- R174: what a step has changed of the state that conditions read, and has not reached the matrix yet: by how much the
store's free count has changed, and what PAPER OUT was where its change is still to come. A step changes nothing else
beside an event of another block: the tape inputs and LQ change with their own event alone, and the ATTENDED switch with
none (log 21). -/
structure Unseen where
  room : Int
  paper : Option Bool
  deriving DecidableEq, Repr

/-- R174, R175: a condition as the matrix tests it, on the state before the changes that have not reached it. -/
def State.condSeen (s : State) (unseen : Unseen) (c : BitVec 4) : Bool :=
  if c = 12 then decide ((Config.highMark : Int) < s.store.free.length - unseen.room)
  else
    (s.setPrinter
      { s.printer with
        paper := { s.printer.paper with on := unseen.paper.getD s.printer.paper.on } }).condHolds c

/-- R173: the actions of the enabled entries that name the event and whose condition holds, in table order. -/
def State.linkActions (s : State) (unseen : Unseen) (ev : BitVec 4) : List (BitVec 4) :=
  match s.links.table with
  | none => []
  | some t => (t.filter fun l => l.enable && l.event = ev && s.condSeen unseen l.cond).map Link.action

/-- R176: the call that an event's actions on a call are for: none for CALL-END, whose call has ended. -/
def Event.call (e : Event) : Option Nat := if e.code = 3 then none else e.serial

/-- R118: the text code that is taken after the event it came with: dropped where the event's PUNCH-STOP has released the
punch. -/
def State.lateCode (s : State) (e : Event) : State :=
  match e.late with
  | some c => if s.holdsCall e.call then s.punchCode c else s
  | none => s

/-- R173: an event is taken whole: all conditions first, then the actions in table order. A code taken after it follows. -/
def State.takeEvent (s : State) (unseen : Unseen) (e : Event) : State :=
  ((s.linkActions unseen e.code).foldl (fun t a => t.doAction e.call a) s).lateCode e

/-! ### Raising and taking (R172, R174) -/

/-- R172: a block raises an event. DESIGN CHOICE (log 21): the matrix takes it at the end of the step, so that its actions
find what the whole step has left (R174). -/
def State.raiseEvent (s : State) (e : Event) : State :=
  s.setLinks { s.links with raised := s.links.raised ++ [⟨e, s.store.free.length⟩] }

/-- R172: an event with which no text code is taken. -/
def State.raise (s : State) (ev : BitVec 4) (serial : Option Nat) : State := s.raiseEvent ⟨ev, serial, none⟩

/-- R66, R118, R172: event 4 of the held call, and its BELL code at the punch. Where the call owns the punch, the code may
be taken before the event's PUNCH-STOP or after it: the free value chooses (log 63). Else the punch takes no code. -/
def State.bellText (s : State) (c : Code) : State :=
  let n := some s.callSerial
  if s.punch.ownedByCall s.callSerial then
    let t := s.setLinks { s.links with choices := s.links.choices + 1 }
    if Config.eventFirst s.links.choices % 2 = 0 then (t.punchCode c).raise 4 n else t.raiseEvent ⟨4, n, some c⟩
  else s.raise 4 n

/-- R174: what reaches the matrix in one step: an event, or a change of the store's free count, which STORE-ROOM reads.
A change that an event reports reaches the matrix with it, so that the event is evaluated before any other that finds
the change made: that of PAPER OUT with PAPER-OUT or PAPER-BACK (R174), and a change `d` of the free count with the
STORE-HIGH that it raises (DEDUCED, log 21). -/
inductive Arrival where
  | event (e : Event) (d : Int)
  | room (d : Int)
  deriving DecidableEq, Repr

/-- R172: the blocks that raise events. -/
inductive EventBlock where
  | tracker | liu | printer | punch | quality | store | answer
  deriving DecidableEq, Repr

/-- R172: the block that raises an event. -/
def Event.block (e : Event) : EventBlock :=
  match e.code.toNat with
  | 5 => .liu
  | 6 | 7 => .printer
  | 8 | 9 => .punch
  | 10 | 11 | 12 => .quality
  | 13 | 14 => .store
  | 15 => .answer
  | _ => .tracker

/-- R172, R174: the block from which it comes. -/
def Arrival.block : Arrival → EventBlock
  | .event e _ => e.block
  | .room _ => .store

/-- R172, R174: of two arrivals in this order, the first is taken first: they are one block's, or a BREAK-SEEN and the
CALL-END that follows it. -/
def Arrival.before (a b : Arrival) : Bool :=
  a.block = b.block ||
    (match a, b with
     | .event d _, .event e _ => d.code = 5 && e.code = 3
     | _, _ => false)

/-- R174: the change of the free count, where there is one. -/
def roomChange (n m : Nat) : List Arrival := if n = m then [] else [.room (m - n)]

/-- R173, R174: an event raised, and the change of the free count since `n` blocks were free: STORE-HIGH's with it, and
else ahead of it. -/
def Raised.arrive (n : Nat) (r : Raised) : List Arrival :=
  if r.event.code = 13 then [.event r.event (r.free - n)] else roomChange n r.free ++ [.event r.event 0]

/-- R174: the events of a step that began with `n` blocks free and leaves `m`, and among them the changes of the count. -/
def arrivals (n : Nat) : List Raised → Nat → List Arrival
  | [], m => roomChange n m
  | r :: rs, m => r.arrive n ++ arrivals r.free rs m

/-- R174: of arrivals in the order of the step, after those in `past`, the ones that may be taken first. -/
def takenFirst (past : List Arrival) : List Arrival → List Arrival
  | [] => []
  | a :: as => if past.any (·.before a) then takenFirst (a :: past) as else a :: takenFirst (a :: past) as

/-- R174: the order in which arrivals are taken, and the number of choices made then, `c` of them before; `n` bounds
their number. Where more than one may come first, the free value chooses (log 21). -/
def takenOrder : Nat → Nat → List Arrival → List Arrival × Nat
  | 0, c, _ => ([], c)
  | n + 1, c, as =>
    match takenFirst [] as with
    | [] => ([], c)
    | [a] => let r := takenOrder n c (as.erase a); (a :: r.1, r.2)
    | a :: a' :: rest =>
      let x := (a :: a' :: rest).getD (Config.eventFirst c % (rest.length + 2)) a
      let r := takenOrder n (c + 1) (as.erase x)
      (x :: r.1, r.2)

/-- R172, R173: PAPER OUT as it was before the change that an event reports. -/
def Event.paperBefore (e : Event) : Option Bool :=
  match e.code.toNat with
  | 6 => some false
  | 7 => some true
  | _ => none

/-- R174: what the arrivals still to come have changed. -/
def unseenOf : List Arrival → Unseen
  | [] => ⟨0, none⟩
  | .event e d :: as => ⟨d + (unseenOf as).room, e.paperBefore.or (unseenOf as).paper⟩
  | .room d :: as => ⟨d + (unseenOf as).room, (unseenOf as).paper⟩

/-- R174: arrivals are taken one after another, an event on what has reached the matrix by then. -/
def State.takeInOrder : List Arrival → State → State
  | [], s => s
  | .event e _ :: as, s => (s.takeEvent (unseenOf as) e).takeInOrder as
  | .room _ :: as, s => s.takeInOrder as

/-- R173, R174: what a step that began with `n` blocks free has raised is taken; `kept` waits in the matrix as before the
step. -/
def State.takeRaised (s : State) (n : Nat) (kept : List Raised) : State :=
  let as := arrivals n s.links.raised s.store.free.length
  let r := takenOrder as.length s.links.choices as
  (s.setLinks { s.links with raised := kept, choices := r.2 }).takeInOrder r.1

/-- R173, R174: a step of the blocks, and then the events that they raised in it. No action raises an event. -/
def State.thenEvents (f : State → State) (s : State) : State :=
  (f (s.setLinks { s.links with raised := [] })).takeRaised s.store.free.length s.links.raised

/-- R130: STORE-HIGH is raised when an allocation has brought the free count to 16. -/
def State.raiseHigh (s : State) (allocated : Bool) : State :=
  if allocated && s.store.free.length = Config.highMark then s.raise 13 none else s

end Sys2Proof.Machine
end

