-- ==== Sys2Proof/Machine/CallOps.lean ====
section
/-! DEFINITION. Operations of the Line Protocol Controller, the Answering Unit and the Keyboard Encoder that reach one
another: text to the store and the punch, ends of jobs, of messages, of collections and of calls, obligations. -/

namespace Sys2Proof.Machine

/-! ### Type-ahead and call request (R74, R75, R79, R86) -/

/-- R75: an entry joins; the 32nd locks. -/
def Kbd.join (k : Kbd) (e : Entry) : Kbd :=
  { k with queue := k.queue ++ [e], locked := k.locked || Config.typeAhead ≤ k.queue.length + 1 }

/-- R75: entries have left; 24 or fewer unlock. -/
def Kbd.withQueue (k : Kbd) (q : List Entry) : Kbd :=
  { k with queue := q, locked := k.locked && Config.unlockAt < q.length }

/-- R74: the head entry is taken. -/
def Kbd.pop (k : Kbd) : Kbd := k.withQueue k.queue.tail

/-- R83, R86: every entry of a route is removed. -/
def Kbd.removeRoute (k : Kbd) (r : Route) : Kbd := k.withQueue (k.queue.filter fun e => e.route != r)

/-- The set-up's route is LINE or COLLECT. -/
def Setup.isLine : Setup → Bool
  | .ready => false
  | .dest1 r => r != .prepare
  | .dest2 r _ => r != .prepare
  | .code _ _ => true
  | .openLine _ => true
  | .openPrepare _ _ => false

/-- R86: the call request ends badly. DESIGN CHOICE (log 64): the second of the two reports, too, returns a LINE or COLLECT
set-up to READY, as R86's first sentence has it: where it finds one begun since the first report, in a DEST or CODE state,
it does not do nothing. -/
def Kbd.requestFailed (k : Kbd) : Kbd :=
  { k with request := none, setup := if k.setup.isLine then .ready else k.setup }.removeRoute .line

/-- R79: the call request ends with its job SENT. -/
def Kbd.requestSent (k : Kbd) : Kbd :=
  { k with
    request := none
    setup := match k.setup with
      | .openLine _ => .ready
      | u => u }.removeRoute .line

/-- R43, R78: the request's job goes back to its source. -/
def Kbd.requestBack (k : Kbd) : Kbd := { k with request := k.request.map fun r => { r with taken := false } }

/-! ### Store entries (R143) -/

/-- R143: a SENDING entry is settled; four attempts raise PREPARED-FAILED. -/
def State.settleEntry (s : State) (i : Nat) (o : CallOutcome) : State :=
  let t := s.setStore (s.store.settle i o)
  if (t.store.entry i).any fun e => e.kind = .prepared && e.state = .failed then t.raise 14 none else t

/-- R142, R143: the entry is SENDING without a sending serial. -/
def State.unserialled (s : State) (i : Nat) : Bool :=
  (s.store.entry i).any fun e => e.kind = .prepared && e.state = .sending && e.sending.isNone

/-! ### Collections (R166, R167) -/

/-- R167: a collection ends; COLLECTED is raised once when a delivery was given. -/
def State.endCollection (s : State) (c : Collection) : State :=
  let t := s.setAnswer { s.answer with coll := none }
  if 1 ≤ c.given then t.raise 15 none else t

/-- R145, R166: a delivery result for the entry being delivered. -/
def State.deliveryResult (s : State) (c : Collection) (complete : Bool) : State :=
  match c.entry with
  | some i => s.setStore (s.store.delivered i complete)
  | none => s

/-- R166: the JOB-END of a DELIVER job. -/
def State.deliverEnd (s : State) (r : JobResult) : State :=
  match s.answer.coll with
  | none => s
  | some c =>
    let t := s.deliveryResult c (r = .sent)
    let d := { c with entry := none }
    if r = .sent && c.phase != .closing then t.setAnswer { t.answer with coll := some { d with phase := .between } }
    else t.endCollection d

/-! ### Ends of jobs (R43) -/

/-- The call outcome that a JOB-END result is taken as (R143). -/
def JobResult.outcome : JobResult → CallOutcome
  | .broken => .broken
  | .refused => .refused
  | _ => .aborted

/-- R43, R79, R86, R143, R162, R166: JOB-END at the job's source. -/
def State.jobEnd (s : State) (j : Job) (r : JobResult) : State :=
  match j.kind with
  | .answer => s
  | .deliver => s.deliverEnd r
  | _ =>
    match j.source with
    | .store (some i) =>
      if (r = .broken || r = .refused || r = .aborted) && s.unserialled i then s.settleEntry i r.outcome else s
    | .store none => s
    | .answerBack => s
    | _ => s.setKbd (if r = .sent then s.kbd.requestSent else s.kbd.requestFailed)

/-- The slot is emptied and the Sender is IDLE. -/
def State.emptySlot (s : State) : State :=
  s.setSender { s.sender with phase := .idle, job := none, owed := [], wru := false, yld := .fresh }

/-- R43: the job in the slot ends with a result. -/
def State.finishJob (s : State) (r : JobResult) : State :=
  match s.sender.job with
  | none => s.emptySlot
  | some j => s.emptySlot.jobEnd j r

/-- R43, R44, R55: a MESSAGE or POLL job goes back to its source; an obligation ends LAPSED. -/
def State.returnJob (s : State) : State :=
  match s.sender.job with
  | none => s.emptySlot
  | some j =>
    match j.kind with
    | .answer => s.finishJob .lapsed
    | .deliver => s.finishJob .lapsed
    | _ =>
      match j.source with
      | .store (some i) => s.emptySlot.setStore (s.store.returnOutbound i)
      | .store none => s.emptySlot
      | .answerBack => s.emptySlot
      | _ => s.emptySlot.setKbd s.kbd.requestBack

/-! ### Guards (R44, R45) -/

/-- R45: one step of the deferral generator. -/
def deferralStep (g : BitVec 15) : BitVec 15 :=
  (g <<< 1) ||| (BitVec.ofBool (g.getLsbD 14 ^^ g.getLsbD 13)).setWidth 15

/-- R45: the guard that a generator value and the courtesy mark give. -/
def contentionGuardOf (g : BitVec 15) (courtesy : Bool) : Nat :=
  Config.contentionGuard + g.toNat % 16 + (if courtesy then Config.courtesyElements else 0)

/-- R45: a MESSAGE or POLL job enters WAIT-GUARD. -/
def State.contend (s : State) (j : Job) : State :=
  let g := deferralStep s.sender.gen
  s.setSender
    { s.sender with
      phase := .waitGuard, job := some j, gen := g, courtesy := false
      guard := contentionGuardOf g s.sender.courtesy, owed := [], wru := false, yld := .fresh, pos := 0 }

/-- R44: an obligation enters WAIT-GUARD. -/
def State.takeObligation (s : State) (j : Job) : State :=
  s.setSender
    { s.sender with
      phase := .waitGuard, job := some j, oblig := none
      guard := if j.first then Config.answerGuard else Config.continueGuard, owed := [], wru := false, yld := .fresh,
      pos := 0 }

/-- R46, R53: a MESSAGE or POLL job returns to WAIT-GUARD; its entry's sending serial is cleared (R142). -/
def State.recontend (s : State) : State :=
  match s.sender.job with
  | none => s.emptySlot
  | some j =>
    let t := match j.source with
      | .store (some i) => s.setStore (s.store.setSending i none)
      | _ => s
    t.contend { j with callSerial := none }

/-- R42, R43: an obligation is given: it displaces a job in WAIT-GUARD and is taken at once, or waits for the slot. -/
def State.giveObligation (s : State) (j : Job) : State :=
  if s.sender.phase = .waitGuard then s.returnJob.takeObligation j
  else s.setSender { s.sender with oblig := some j }

/-- R44, R166: an obligation that was not taken lapses. -/
def State.lapsePending (s : State) : State :=
  match s.sender.oblig with
  | none => s
  | some j => (s.setSender { s.sender with oblig := none }).jobEnd j .lapsed

/-! ### Ends of messages (R153, R160) -/

/-- R153: joining a message's recorded value to the value entered. -/
def joinDisp (a b : Disp) : Disp :=
  if a = .partLost || b = .partLost then .partLost
  else if a = .lost && b = .lost then .lost
  else if a = .lost || b = .lost then .partLost
  else if a = b then a
  else .split

/-- R160: the end of a DELIVER's message at the collector; `broken` when it ended at BREAK-SEEN. DESIGN CHOICE
(log 43): one whose last text code was EOM closes COMPLETE then too. DESIGN CHOICE (log 36): in a MESSAGE call its value
joins the MESSAGE's in the log as R153 has it for a POLL call. -/
def State.endDeliver (s : State) (broken : Bool) : State :=
  match s.answer.disp with
  | none => s
  | some d =>
    if !d.deliver then s
    else
      let o : CallOutcome := if d.eom then .complete else if broken then .broken else .incomplete
      let s := if d.state = .direct then s.setPrinter (s.printer.endLine s.callSerial) else s
      let s := match d.entry with
        | some i => s.setStore (s.store.closeEntry i o)
        | none => s
      let s := s.setAnswer { s.answer with disp := none }
      match d.recorded with
      | none => s
      | some v => s.modLog fun r => { r with disp := some (r.disp.elim v fun a => joinDisp a v) }

/-! ### The end of a call (R64) -/

/-- R63: the outcome by the first line that holds. -/
def Call.r63 (c : Call) : CallOutcome :=
  if c.log.kind = .poll && c.deliveries = 0 then .notServed else if c.eom then .complete else .incomplete

/-- R64, R68: the record is completed and the state becomes NO-CALL. DESIGN CHOICE (log 45): a sending whose header is
still to come stays before its header, and that header is judged by R61, though an own sending stopped ahead of it ended
the call (R65). -/
def Tracker.close (t : Tracker) (c : Call) (o : CallOutcome) : Tracker :=
  { t with
    call := none
    belongs := if t.belongs = .joined then .outside else t.belongs
    log := ({ c.log with outcome := some o } :: t.log).take Config.logRecords }

/-- R139, R147: CALL-END at the store, but for settlement. -/
def Store.callEnd (st : Store) (serial : Nat) (o : CallOutcome) : Store :=
  let t := st.closeCall serial o
  if t.note = some serial then { t with note := none } else t

/-- R118, R114: CALL-END at the punch. -/
def Punch.callEnd (p : Punch) (serial : Nat) : Punch :=
  let q := if p.ownedByCall serial then p.release else p
  { q with claim := none }

/-- R150, R159, R162, R164: CALL-END at the Answering Unit, but for the collection. -/
def Answer.callEnd (a : Answer) : Answer :=
  { a with disp := none, callSpool := false, pending := false, poll := [] }

/-- R167: CALL-END of the POLL call. -/
def State.collectionCallEnd (s : State) (serial : Nat) : State :=
  match s.answer.coll with
  | none => s
  | some c =>
    if c.serial != serial then s
    else
      match c.phase with
      | .between => s.endCollection c
      | .serving => s.setAnswer { s.answer with coll := some { c with phase := .closing } }
      | .closing => s

/-- R86: outcomes that end the keyboard's request. -/
def CallOutcome.bad : CallOutcome → Bool
  | .broken => true
  | .refused => true
  | .aborted => true
  | _ => false

/-- R45, R51, R86: CALL-END at the Keyboard Encoder and the Sender, when the role was CALLER. R86 names no job: the
keyboard's request ends whichever job opened the call (log 10), and a set-up in a DEST or CODE state goes back to READY
whether or not a request stands (log 64). -/
def State.callerCallEnd (s : State) (serial : Nat) (o : CallOutcome) : State :=
  let s := if o.bad then s.setKbd s.kbd.requestFailed else s
  let s := if o = .complete then s.setSender { s.sender with courtesy := true } else s
  if s.sender.phase = .yielding && s.sender.job.any (fun j => j.callSerial = some serial) then s.finishJob .aborted
  else s

/-- R64: the held call ends with an outcome, for whatever cause; CALL-END goes to its receivers and is raised as
event 3. DESIGN CHOICE (log 50): the order of the receivers; the end of a DELIVER's message, with its own close (R160),
comes before the close by CALL-END (R139). -/
def State.endCall (s : State) (o : CallOutcome) : State :=
  let s := s.endDeliver false
  match s.tracker.call with
  | none => s
  | some c =>
    let n := c.log.serial
    let s := s.setTracker (s.tracker.close c o)
    let s := s.setStore (s.store.callEnd n o)
    let s := match s.store.settledBy n with
      | some i => s.settleEntry i o
      | none => s
    let s := s.setPrinter (s.printer.endLine n)
    let s := s.setPunch (s.punch.callEnd n)
    let s := (s.setAnswer s.answer.callEnd).collectionCallEnd n
    let s := if c.log.role = .caller then s.callerCallEnd n o else s
    s.raise 3 (some n)

/-- R63: the held call ends under R63. -/
def State.endCallR63 (s : State) : State :=
  match s.tracker.call with
  | none => s
  | some c => s.endCall c.r63

/-- R63: a call in JUDGING ends, since its new sending does not belong to it. -/
def State.endJudging (s : State) : State :=
  if s.tracker.call.any fun c => c.state = .judging then s.endCallR63 else s

end Sys2Proof.Machine
end

