-- ==== Sys2Proof/Machine/AnswerOps.lean ====
section
/-! DEFINITION. The Answering Unit's operations (chapter 8): the decision, refusal, the spool writer, carrying the
text, the POLL judgement and the collection; and what the Listener's entry into TEXT does. -/

namespace Sys2Proof.Machine

/-! ### Refusal and the decision (R151 to R153) -/

/-- R151: DIRECT possible. -/
def State.directPossible (s : State) : Bool := s.printer.lineGrantable s.store.printList.isEmpty

/-- R151: SPOOL possible. -/
def State.spoolPossible (s : State) : Bool := s.store.canCreate

/-- R150: a record as it opens; it takes the call's spool mark. -/
def State.openDisp (s : State) (origin dest : StationCode) (deliver : Bool) : DispRecord where
  state := .awaited
  spoolMark := s.answer.callSpool
  taken := false
  entry := none
  spoolCase := .low
  refusal := false
  recorded := none
  origin := origin
  dest := dest
  deliver := deliver
  contFirst := false
  lastJoin := none
  later := false
  eom := false

/-- R152: a LINE grant is asked for; none when it is refused. -/
def State.tryDirect (s : State) (d : DispRecord) : Option State :=
  if s.directPossible then
    some ((s.setPrinter (s.printer.grantLine s.callSerial)).putDisp
      { d with state := .direct, recorded := some .direct })
  else none

/-- R152: a RECEIVED entry is asked for. The second part is false when the answer is EXHAUSTED. -/
def State.trySpool (s : State) (d : DispRecord) : State × Bool :=
  let r := s.createReceived d false
  match r.2 with
  | none => (r.1, false)
  | some i =>
    ((r.1.putDisp { d with state := .spool, entry := some i, recorded := some .spool, spoolCase := .low }).raiseHigh
      true, true)

/-- R152, R153: a message with no place. -/
def State.noPlace (s : State) (d : DispRecord) : State :=
  let t := s.putDisp { d with state := .lost, recorded := some .lost }
  if s.roleIs .called && !d.deliver then t.requestBurst else t

/-- R152, R153: the decision; the spool mark turns the two tries round. -/
def State.decide (s : State) (d : DispRecord) : State :=
  if d.spoolMark then
    let r := s.trySpool d
    if r.2 then r.1 else (r.1.tryDirect d).getD (r.1.noPlace d)
  else
    match s.tryDirect d with
    | some t => t
    | none =>
      let r := s.trySpool d
      if r.2 then r.1 else r.1.noPlace d

/-- R151: the two cases of a refusal. -/
def State.refuses (s : State) : Bool :=
  (!s.kbd.attended.pos && s.quality.lq = .poor) || (!s.directPossible && !s.spoolPossible)

/-- R151: REFUSAL-POINT at the Answering Unit. -/
def State.refusalPoint (s : State) : State :=
  match s.answer.disp with
  | none => s
  | some d =>
    if s.roleIs .called && d.state = .awaited && s.refuses then
      (s.requestBurst).putDisp
        { d with state := .refused, recorded := some .refused, refusal := s.burstSent }
    else s

/-- R152: WINDOW-END at the Answering Unit. -/
def State.decideWindow (s : State) : State :=
  match s.answer.disp with
  | none => s
  | some d => if d.state = .awaited then s.decide d else s

/-! ### Carrying the text (R154, R155, R158) -/

/-- R136, R155, R158: the spool writer writes one cell; `text` says that it is a text code of the message. -/
def State.spoolCell (s : State) (d : DispRecord) (c : Code) (err text : Bool) : State :=
  match d.entry with
  | none => s
  | some i =>
    let r := s.store.writeCell i c err
    match r.2 with
    | .written grew =>
      ((s.setStore r.1).putDisp
        { d with
          taken := d.taken || text, contFirst := false
          spoolCase := if err then d.spoolCase else trackCase s.loader.straps.usos d.spoolCase c }).raiseHigh grew
    | .exhausted => (s.setStore r.1).loseRest d

/-- R155: the HS cell before the first code of a CONTINUED entry, when that code goes on with the sending whose last
printed code left the Listener in high case. -/
def State.spoolShift (s : State) : State :=
  match s.answer.disp with
  | some d =>
    if d.state = .spool && d.contFirst && d.lastJoin = some .high then s.spoolCell d 17 false false else s
  | none => s

/-- R154: a text code is written to the entry. -/
def State.spoolCode (s : State) (c : Code) (err : Bool) : State :=
  let t := s.spoolShift
  match t.answer.disp with
  | some d => if d.state = .spool then t.spoolCell d c err true else t
  | none => t

/-- R93, R156: FULL: the message switches to spooling and the code is the first of the remainder. -/
def State.printFull (s : State) (d : DispRecord) (c : Code) (err : Bool) : State :=
  let t := s.switchOver d
  (t.raiseHigh (t.answer.disp.any fun e => e.state = .spool)).spoolCode c err

/-- R154: a text code passed to the disposition; `k` is the Listener's text case after it. DESIGN CHOICE (log 41): one that
reaches a record still AWAITED is discarded. -/
def State.passCode (s : State) (c : Code) (err : Bool) (k : Case) : State :=
  match s.answer.disp with
  | none => s
  | some d =>
    match d.state with
    | .direct =>
      match s.printer.offerLine s.callSerial c err k with
      | some p => (s.setPrinter p).putDisp { d with taken := true, lastJoin := some k }
      | none => s.printFull d c err
    | .spool => s.spoolCode c err
    | .awaited => s
    | .refused => s
    | .lost => s

/-! ### Entry into TEXT (R59, R62, R114, R155) -/

/-- R62, R138: the held call becomes doubtful. -/
def State.markDoubtful (s : State) : State :=
  if s.tracker.call.isSome then
    (s.modLog fun r => { r with doubtful := true }).setStore (s.store.markDoubtful s.callSerial)
  else s

/-- R66: the text of the sending now followed is passed on: it belongs to the held call, is no POLL, and no own
DELIVER. DESIGN CHOICE (log 34): for R114 that of a CONTINUE or ANSWER in a POLL call is a text start. -/
def State.passesText (s : State) : Bool :=
  s.tracker.belongs = .joined &&
    s.tracker.call.any fun c => c.sKind != .poll && !(c.sKind = .deliver && c.log.role = .called)

/-- R114: what the Punch Controller does at the text start. -/
def State.textStartPunch (s : State) : State :=
  match s.punch.claim with
  | none => s
  | some .made => s
  | some .wanted => if s.kbd.punchSw.pos = .off then s else s.claimPunch
  | some .notWanted => if s.kbd.punchSw.pos = .on then s.claimPunch else s

/-- R114: the text start of the held call, if this is it. -/
def State.textStart (s : State) : State :=
  if s.passesText && s.tracker.call.any fun c => !c.textStarted then
    (s.modCall fun c => { c with textStarted := true }).textStartPunch
  else s

/-- R155: the spool writer at the entry into TEXT of a sending of the message. -/
def State.dispTextStart (s : State) : State :=
  match s.answer.disp with
  | none => s
  | some d =>
    let e := { d with lastJoin := none, later := true }
    let t := s.putDisp e
    if e.state = .spool && d.later && d.spoolCase = .high then t.spoolCell e 14 false false else t

/-- The Listener enters TEXT. -/
def State.enterText (s : State) : State :=
  let s := s.setListener { s.listener with phase := .text, textCase := .low }
  if s.tracker.belongs = .joined && s.tracker.call.isSome then
    let s := if s.quality.lq != .good then s.markDoubtful else s
    let s := if s.passesText then s.dispTextStart else s
    s.textStart
  else s

/-! ### The POLL judgement and the collection (R164, R165) -/

/-- R164: a well formed POLL text. -/
def pollWellFormed : List Code → Bool
  | [_, _, _, _, e] => e = 29
  | [_, _, _, _, h, e] => h = 17 && e = 29
  | _ => false

/-- R164: four identical codes. -/
def allSame : List Code → Bool
  | [] => true
  | c :: cs => cs.all (· = c)

/-- R164: one wrong attempt. -/
def Answer.wrongAttempt (a : Answer) : Answer :=
  { a with wrong := min 3 (a.wrong + 1), facility := if 3 ≤ a.wrong + 1 then .locked else a.facility }

/-- R165: a DELIVER job. -/
def State.deliverJob (s : State) (entry : Option Nat) (first : Bool) : Job :=
  { kind := .deliver
    dest := s.tracker.call.elim .zero fun c => c.log.origin
    source := .store entry
    verify := false
    first := first
    callSerial := some s.callSerial }

/-- R165: the obligation to deliver an entry, or nothing. -/
def State.giveDeliver (s : State) (c : Collection) (entry : Option Nat) : State :=
  let t := match entry with
    | some i => s.setStore (s.store.takeHeld i c.serial)
    | none => s
  (t.setAnswer { t.answer with
      coll := some { c with given := c.given + 1, entry := entry, phase := .serving } }).giveObligation
    (t.deliverJob entry (c.given = 0))

/-- R165: the next step of the collection. -/
def State.collectionStep (s : State) (c : Collection) : State :=
  if s.quality.lq = .poor then s.endCollection c
  else if 8 ≤ c.given then s.endCollection c
  else
    match s.store.heldList with
    | i :: _ => s.giveDeliver c (some i)
    | [] => if c.given = 0 then s.giveDeliver c none else s.endCollection c

/-- R165: a collection begins; an earlier one cannot be in progress, since one call is held at a time and CALL-END
leaves at most a CLOSING one, which this one replaces only after its JOB-END. -/
def State.beginCollection (s : State) : State :=
  s.collectionStep ⟨s.callSerial, 0, none, .between⟩

/-- R164: the judgement of a POLL text of codes without error marks. -/
def State.judgePoll (s : State) (codes : List Code) : State :=
  if s.answer.facility != .opened then s
  else
    match s.answer.access with
    | none => s
    | some acc =>
      if !pollWellFormed codes then s.setAnswer s.answer.wrongAttempt
      else if allSame (codes.take 4) then s.setAnswer { s.answer with facility := .locked, wrong := 3 }
      else if codes.take 4 != acc then s.setAnswer s.answer.wrongAttempt
      else (s.setAnswer { s.answer with wrong := 0 }).beginCollection

/-- R164: the judgement at the REST-RECOGNISED that ends the POLL sending. -/
def State.pollEnded (s : State) : State :=
  let t := s.setAnswer { s.answer with poll := [] }
  if s.tracker.call.any (fun c => c.eom) && s.answer.poll.all (fun x => !x.2) then
    t.judgePoll (s.answer.poll.map Prod.fst)
  else t

/-- R165: REST-RECOGNISED in phase BETWEEN. -/
def State.collectionRest (s : State) : State :=
  match s.answer.coll with
  | some c => if c.phase = .between then s.collectionStep c else s
  | none => s

/-- R162: the ANSWER obligation. -/
def State.giveAnswer (s : State) : State :=
  match s.tracker.call with
  | none => s
  | some c =>
    s.giveObligation
      { kind := .answer, dest := c.log.origin, source := .answerBack, verify := false, first := true
        callSerial := some c.log.serial }

end Sys2Proof.Machine
end

