-- ==== Sys2Proof/Machine/FramerOps.lean ====
section
/-! DEFINITION. The Character Framer, the Distortion Gauge and the integrators on their own (chapter 2). -/

namespace Sys2Proof.Machine

/-! ### Distortion Gauge (R28, R29) -/

/-- R28: |d| of a transition at t. -/
def displacement (t : Nat) : Nat :=
  if t < 32 || 416 ≤ t then 32
  else
    let k := (t + 32) / 64
    if 64 * k ≤ t then t - 64 * k else 64 * k - t

/-- R29: the distortion D of the recorded transitions. -/
def distortion (ts : List Nat) : Nat := (ts.map displacement).foldl max 0

/-! ### Framer reports (R20 to R30) -/

/-- What the Framer and the Gauge report at one sample, in order. -/
inductive Report where
  | leadIn
  | unframed
  | markElement
  | errorEvent
  | character (c : Code) (err : Bool) (d : Nat)
  deriving DecidableEq, Repr

/-- The Framer and the Gauge with what they report. -/
structure Framed where
  framer : Framer
  gauge : Gauge
  reports : List Report
  deriving DecidableEq, Repr

/-- R22: a P or N sample in HUNT, with the level of the sample before and the time since the lock point. -/
def Framer.huntMark (f : Framer) (x : Level) (p : Polarity) : Framer × List Report :=
  if x ≠ f.prev then ({ f with pol := p, lock := some 0 }, [.markElement])
  else
    match f.lock with
    | none => ({ f with pol := p }, [])
    | some n =>
      if Config.elementSamples ≤ n + 1 then
        ({ f with pol := p, lock := some (n + 1 - Config.elementSamples) }, [.markElement])
      else ({ f with pol := p, lock := some (n + 1) }, [])

/-- R22: one sample in HUNT. -/
def Framer.hunt (f : Framer) (g : Gauge) (x : Level) : Framed :=
  match levelPol x with
  | some p => ⟨(f.huntMark x p).1, g, (f.huntMark x p).2⟩
  | none =>
    if f.prev = .z then ⟨f, g, []⟩
    else ⟨{ f with state := .assemble, t := 0, code := 0, seenMark := false }, ⟨[]⟩, []⟩

/-- R20, R21: one sample in LEAD-WATCH. -/
def Framer.leadWatch (f : Framer) (g : Gauge) (x : Level) : Framed :=
  match levelPol x with
  | none => ⟨{ f with state := .unframed }, g, [.unframed]⟩
  | some p =>
    let rev := x != f.prev
    let run := f.run + 1
    let revs := if rev then f.revs + 1 else f.revs
    let since := if rev then 0 else f.sinceRev + 1
    let h := { f with pol := p, run := run, revs := revs, sinceRev := since }
    if Config.leadRun ≤ run && Config.leadReversals ≤ revs then
      ⟨{ h with state := .hunt, lock := some since }, g, [.leadIn]⟩
    else ⟨h, g, []⟩

/-- R26: a sample at a sampling instant: the polarity memory after it, and the violation. -/
def Framer.check (f : Framer) (x : Level) : Framer × List Report :=
  match levelPol x with
  | none => (f, [])
  | some p => ({ f with pol := p }, if p = f.pol then [.errorEvent] else [])

/-- R24: the data element sampled at t = 64k + 32, k from 1 to 5. -/
def dataElement (t : Nat) : Option Nat :=
  if t = 96 then some 0 else if t = 160 then some 1 else if t = 224 then some 2
  else if t = 288 then some 3 else if t = 352 then some 4 else none

/-- R24: bit k of the code is 1. -/
def setBit (c : Code) (k : Nat) : Code := c ||| ((1 : Code) <<< k)

/-- R25, R29, R30: the stop sample. `margin` is M, `trans` the transitions up to and with this sample. -/
def Framer.stop (f : Framer) (margin : Nat) (trans : List Nat) (x : Level) : Framed :=
  let h := { f with state := .hunt, lock := none, t := 0 }
  let d := distortion trans
  let late : List Report := if margin ≤ d then [.errorEvent] else []
  if x ≠ .z then
    ⟨(h.check x).1, ⟨[]⟩, (h.check x).2 ++ late ++ [.character f.code false d]⟩
  else if f.seenMark then ⟨h, ⟨[]⟩, [.errorEvent] ++ late ++ [.character f.code true d]⟩
  else ⟨h, ⟨[]⟩, []⟩

/-- R23 to R26, R28: one sample in ASSEMBLE. -/
def Framer.assemble (f : Framer) (g : Gauge) (margin : Nat) (x : Level) : Framed :=
  let t := f.t + 1
  let trans := if x ≠ f.prev then g.trans ++ [t] else g.trans
  let h := { f with t := t, seenMark := f.seenMark || x != .z }
  if t = 32 && x ≠ .z then
    let r := ({ h with state := .hunt, lock := none, t := 0 }).hunt ⟨[]⟩ x
    ⟨r.framer, ⟨[]⟩, .errorEvent :: r.reports⟩
  else
    match dataElement t with
    | some k =>
      let c := h.check x
      ⟨if x = .z then c.1 else { c.1 with code := setBit h.code k }, ⟨trans⟩, c.2⟩
    | none => if 416 ≤ t then h.stop margin trans x else ⟨h, ⟨trans⟩, []⟩

/-- R18 to R29: one sample at the Framer and the Gauge. -/
def Framer.sample (f : Framer) (g : Gauge) (margin : Nat) (x : Level) : Framed :=
  let r : Framed :=
    match f.state with
    | .waitRest => ⟨f, g, []⟩
    | .unframed => ⟨f, g, []⟩
    | .quiet =>
      match levelPol x with
      | some p => ⟨{ f with state := .leadWatch, run := 1, revs := 0, sinceRev := 0, pol := p }, g, []⟩
      | none => ⟨f, g, []⟩
    | .leadWatch => f.leadWatch g x
    | .hunt => f.hunt g x
    | .assemble => f.assemble g margin x
  { r with framer := { r.framer with prev := x } }

/-- R19: REST-RECOGNISED at the Framer. -/
def Framer.rest (f : Framer) : Framer :=
  match f.state with
  | .waitRest => { f with state := .quiet, pol := .neg, run := 0, revs := 0, lock := none }
  | .unframed => { f with state := .quiet, pol := .neg, run := 0, revs := 0, lock := none }
  | .hunt => { f with state := .quiet, pol := .neg, run := 0, revs := 0, lock := none }
  | .quiet => f
  | .leadWatch => f
  | .assemble => f

/-- R19: REST-RECOGNISED is reported to the Listener as SENDING-END. -/
def Framer.endsSending (f : Framer) : Bool := f.state = .unframed || f.state = .hunt

/-- R20, R21, R27: BREAK-SEEN at the Framer. -/
def Framer.break (f : Framer) : Framer :=
  match f.state with
  | .leadWatch => { f with state := .waitRest, lock := none, t := 0 }
  | .unframed => { f with state := .waitRest, lock := none, t := 0 }
  | .hunt => { f with state := .waitRest, lock := none, t := 0 }
  | .assemble => { f with state := .waitRest, lock := none, t := 0 }
  | .waitRest => f
  | .quiet => f

/-- R27: the stand-down; R19: REST-ENDED without a mark in QUIET. -/
def Framer.standDown (f : Framer) : Framer := { f with state := .waitRest, lock := none, t := 0 }

/-! ### Integrators (R32 to R35) -/

def integCeiling : Integ → Nat
  | .fine => Config.fineCeiling
  | .coarse => Config.coarseCeiling

/-- R32: the decrement interval for a flag. -/
def integInterval (w : Integ) (flag : Bool) : Nat :=
  match w, flag with
  | .fine, false => Config.fineClear
  | .fine, true => Config.fineSet
  | .coarse, false => Config.coarseClear
  | .coarse, true => Config.coarseSet

/-- R33: an error event. -/
def Integrator.event (i : Integrator) (ceiling : Nat) : Integrator :=
  if i.counter < ceiling then { i with counter := i.counter + 1, age := if i.counter = 0 then 0 else i.age }
  else { i with sticky := true }

/-- R34: an element tick advances the divider and the age; the decrement is INTEGRATOR_DECREMENT's. DESIGN CHOICE (log 4):
beside an event that finds the counter at 0, R33 and R34 are followed as they stand, so that the event first leaves the age
1 and the tick first leaves it 0. -/
def Integrator.tick (i : Integrator) : Integrator :=
  { i with divider := i.divider + 1, age := min Config.period (i.age + 1) }

/-- R34: the divider has reached the decrement interval. -/
def Integrator.decrementDue (i : Integrator) (w : Integ) : Bool := integInterval w i.flag ≤ i.divider

/-- R34: the decrement. -/
def Integrator.decrement (i : Integrator) : Integrator :=
  { i with divider := 0, counter := i.counter - 1, age := if i.counter = 1 then 0 else i.age }

/-- R35: the flag differs from what the counter calls for at the age of 8192. -/
def Integrator.flagDue (i : Integrator) : Bool := i.age = Config.period && (i.counter != 0) != i.flag

/-- R35: the flag changes and the divider starts again. -/
def Integrator.flagChange (i : Integrator) : Integrator :=
  if i.flagDue then { i with flag := !i.flag, divider := 0 } else i

def Quality.get (q : Quality) : Integ → Integrator
  | .fine => q.fine
  | .coarse => q.coarse

def Quality.put (q : Quality) (w : Integ) (i : Integrator) : Quality :=
  match w with
  | .fine => { q with fine := i }
  | .coarse => { q with coarse := i }

/-- R34: the flag is tested after the decrement of its own integrator. -/
def Quality.flagsDue (q : Quality) : Bool :=
  !q.fine.decrementDue .fine && !q.coarse.decrementDue .coarse && (q.fine.flagDue || q.coarse.flagDue)

/-- R30, R31, R33: an error event at the Quality Monitor and the ERROR lamp. -/
def Quality.event (q : Quality) : Quality :=
  ⟨q.fine.event Config.fineCeiling, q.coarse.event Config.coarseCeiling, some Config.errorLampTicks⟩

end Sys2Proof.Machine
end

