-- ==== Sys2Proof/Machine/SenderOps.lean ====
section
/-! DEFINITION. The Sender's operations (R39 to R55) and the elements that the LIU drives for it (R4 to R7). -/

namespace Sys2Proof.Machine

/-! ### Elements (R4 to R7) -/

/-- R4, R5, R6: an element as it begins. -/
def Liu.beginElem (l : Liu) (k : ElemKind) : Liu :=
  { l with
    elem := some ⟨k, if k = .space then .z else l.pol.level,
      if k = .stop then l.stopLen else Config.elementSamples⟩
    elemIdx := 0 }

/-- R4, R6: an element has ended; each mark turns the polarity memory over. -/
def Liu.endElem (l : Liu) : Liu :=
  match l.elem with
  | none => l
  | some e => { l with elem := none, elemIdx := 0, pol := if e.kind = .space then l.pol else l.pol.flip }

/-- R4: the seven elements of a character. -/
def charElems (c : Code) : List ElemKind :=
  .space :: ((List.range 5).map fun k => if c.getLsbD k then ElemKind.mark else .space) ++ [.stop]

/-- The first of the elements begins, the others wait. -/
def Liu.hand (l : Liu) (ks : List ElemKind) : Liu :=
  match ks with
  | [] => l
  | k :: rest => { l.beginElem k with elems := rest }

/-- R7: the LIU stops driving. -/
def Liu.stop (l : Liu) : Liu := { l with drive := .off, elem := none, elemIdx := 0, elems := [], endNow := false }

/-- R7: the LIU takes a start, and the first lead-in element begins. -/
def Liu.start (l : Liu) : Liu :=
  { l with drive := .sending, pol := .pos, elems := [], endNow := false }.beginElem .hold

/-- R7: the conditions under which a start is taken. -/
def State.startAllowed (s : State) : Bool :=
  s.liu.drive = .off && s.enabled && s.complete && !s.liu.faultLatch

/-! ### The job slot (R41 to R44) -/

/-- The keyboard's PENDING request. -/
def State.pendingRequest (s : State) : Option CallRequest := s.kbd.request.filter fun r => !r.taken

/-- R42: the outbound entry that the Sender would take. -/
def State.outboundReady (s : State) : Option Nat := if s.quality.lq = .poor then none else s.store.offered

/-- R16, R42: the slot may take a job. -/
def State.slotOpen (s : State) : Bool :=
  s.complete && !s.localLoop && s.loader.config = some .valid && s.sender.phase = .idle && s.sender.job.isNone

/-- R42: a source has work ready. -/
def State.sourceReady (s : State) : Bool :=
  s.sender.oblig.isSome || s.pendingRequest.isSome || s.outboundReady.isSome

/-- R41, R78: the job of a call request. -/
def CallRequest.job (r : CallRequest) : Job where
  kind := if r.access.isSome then .poll else .message
  dest := r.dest
  source := match r.access with
    | some cs => .access cs
    | none => .keyboard
  verify := false
  first := false
  callSerial := none

/-- R41: the job of an outbound entry. -/
def State.outboundJob (s : State) (i : Nat) (dest : StationCode) : Job where
  kind := .message
  dest := dest
  source := .store (some i)
  verify := s.loader.straps.verify && s.individualDest dest
  first := false
  callSerial := none

/-- R42: the slot takes the work of the first source that has some. -/
def State.takeJob (s : State) : State :=
  match s.sender.oblig with
  | some j => s.takeObligation j
  | none =>
    match s.pendingRequest with
    | some r => (s.setKbd { s.kbd with request := some { r with taken := true } }).contend r.job
    | none =>
      match s.outboundReady with
      | some i =>
        (s.setStore (s.store.takeOutbound i)).contend
          (s.outboundJob i ((s.store.entry i).elim .zero DirEntry.dest))
      | none => s

/-- An ANSWER or first DELIVER, whose start is allowed from count 4 to count 8 (R44). -/
def Job.early (j : Job) : Bool := (j.kind = .answer || j.kind = .deliver) && j.first

/-- An obligation. -/
def Job.obligation (j : Job) : Bool := j.kind = .answer || j.kind = .deliver

/-- R44, R51: the REST element count has reached the guard. -/
def State.guardDue (s : State) : Bool :=
  s.liu.rest &&
    (match s.sender.phase with
     | .waitGuard =>
       s.sender.guard ≤ s.restCount && s.sender.job.any fun j => !j.early || s.restCount ≤ Config.answerLatest
     | .yielding => Config.continueGuard ≤ s.restCount && s.sender.yld != .begun
     | _ => false)

/-- R40, R46: the kind of the sending that a job starts. -/
def State.startKind (s : State) (j : Job) : SendKind :=
  if s.sender.phase = .yielding then .cont
  else
    match j.kind with
    | .message => .message
    | .poll => .poll
    | .answer => .answer
    | .deliver => .deliver

/-- R7, R46: the start is taken and the Sender enters LEAD; fifteen lead-in elements follow the first. -/
def State.startSending (s : State) (k : SendKind) : State :=
  (s.setLiu s.liu.start).setSender
    { s.sender with
      phase := .lead, sendKind := k, count := Config.leadElements - 1, owed := [], wru := false, holds := 0
      yld := .fresh }

/-- R44: the Sender asks for a start; a refused one sends the job back. -/
def State.askStart (s : State) : State :=
  match s.sender.job with
  | none => s
  | some j => if s.startAllowed then s.startSending (s.startKind j) else s.returnJob

/-- R44: the slot's obligation can no longer start. -/
def State.slotLapseDue (s : State) : Bool :=
  s.liu.rest && s.sender.phase = .waitGuard && Config.answerLatest < s.restCount && s.sender.job.any Job.early

/-- R44: an obligation that was not taken can no longer start. -/
def State.pendingLapseDue (s : State) : Bool :=
  s.liu.rest && Config.answerLatest < s.restCount && s.sender.oblig.any Job.early

/-- R51: the count has passed 8 with no sending begun since the yield. -/
def State.noAnswerBackDue (s : State) : Bool :=
  s.liu.rest && s.sender.phase = .yielding && s.sender.yld = .fresh && Config.answerLatest < s.restCount &&
    s.tracker.call.any fun c => !c.log.noAnswerBack

/-! ### Handing (R46 to R51) -/

/-- R51: a WRU that stops the sending. -/
def State.yieldsAt (s : State) (c : Code) : Bool :=
  c = 22 && s.sender.lineCase = .high && (s.sender.sendKind = .message || s.sender.sendKind = .cont) &&
    s.sender.job.any fun j => s.individualDest j.dest

/-- R48, R49: a code of the text or of the close is handed; `rest` is what is decided to follow it. -/
def State.handCode (s : State) (c : Code) (rest : List Code) : State :=
  (s.setLiu (s.liu.hand (charElems c))).setSender
    { s.sender with
      owed := rest, holds := 0, wru := s.yieldsAt c
      lineCase := trackCase s.loader.straps.usos s.sender.lineCase c }

/-- R46: a header character is handed; it plays no part in case tracking. -/
def State.handHeader (s : State) (c : Code) (rest : List Code) : State :=
  (s.setLiu (s.liu.hand (charElems c))).setSender { s.sender with owed := rest }

/-- R6: one marking hold or lead-in element is handed. -/
def State.handHold (s : State) : State := s.setLiu (s.liu.beginElem .hold)

/-- R50: the HS, when the tracker is L, and the EOM. -/
def closingCodes (k : Case) : List Code :=
  match k with
  | .low => [17, 29]
  | .high => [29]

/-- R50: the Sender enters STOPPING and hands the first code of the close. -/
def State.enterStopping (s : State) : State :=
  let t := s.setSender { s.sender with phase := .stopping }
  match closingCodes s.sender.lineCase with
  | [] => t
  | c :: rest => t.handCode c rest

/-- R50: the sending ends with its job's result SENT. -/
def State.sendingSent (s : State) : State := (s.setLiu s.liu.stop).finishJob .sent

/-- R48: the codes of a keyboard entry, with the shift that its case needs. -/
def keyboardCodes (k : Case) (code : Code) (kcase : Option Case) : List Code :=
  match kcase with
  | some c => if c = k then [code] else [shiftCode c, code]
  | none => [code]

/-- R49: KEYBOARD. -/
def State.handKeyboard (s : State) : State :=
  match s.kbd.queue with
  | [] => s.handHold
  | e :: _ =>
    if e.route != .line then s.handHold
    else
      let t := s.setKbd s.kbd.pop
      match e.code with
      | none => t.enterStopping
      | some c =>
        match keyboardCodes s.sender.lineCase c e.kcase with
        | [] => t
        | x :: rest => t.handCode x rest

/-- R49: STORE; a cell read with a parity error is sent as BLANK. -/
def State.handCell (s : State) (i : Nat) : State :=
  match s.store.entry i with
  | none => s.enterStopping
  | some e =>
    if s.sender.pos < e.len then
      let r := s.store.readCell i s.sender.pos
      ((s.setStore r.1).setSender { s.sender with pos := s.sender.pos + 1 }).handCode
        (if r.2.bad then 0 else r.2.code) []
    else s.enterStopping

/-- R49: a list of raw codes, then what follows it. -/
def State.handList (s : State) (cs : List Code) (atEnd : State) : State :=
  match cs[s.sender.pos]? with
  | some c => (s.setSender { s.sender with pos := s.sender.pos + 1 }).handCode c []
  | none => atEnd

/-- R49: in TEXT, at the end of an element. -/
def State.handText (s : State) : State :=
  match s.sender.owed with
  | c :: rest => s.handCode c rest
  | [] =>
    match s.sender.job with
    | none => s.handHold
    | some j =>
      match j.source with
      | .keyboard => s.handKeyboard
      | .store (some i) => s.handCell i
      | .store none => s.enterStopping
      | .answerBack => s.handList s.answer.answerBack s.sendingSent
      | .access cs => s.handList cs s.enterStopping

/-- R46 to R49: the Sender enters TEXT; an opening MESSAGE with Verify begins with HS and WRU. -/
def State.enterSendText (s : State) : State :=
  (s.setSender
    { s.sender with
      phase := .text, lineCase := .low, holds := 0, wru := false
      owed := if s.sender.sendKind = .message && s.sender.job.any Job.verify then [17, 22] else [] }).handText

/-- R61: the kinds whose header opens a call. -/
def SendKind.opens (k : SendKind) : Bool := k = .message || k = .poll

/-- R46: the own header was taken: a MESSAGE or POLL gave the role CALLER, another kind fitted the held call. DESIGN
CHOICE (log 39): R46's list alone decides, so one heard without an error mark as another kind was taken where it
did so. -/
def State.headerTaken (s : State) : Bool :=
  s.tracker.belongs = .joined &&
    s.tracker.call.any fun c =>
      if s.sender.sendKind.opens then
        c.sKind.opens && c.log.role = .caller && s.sender.job.any fun j => j.callSerial = some c.log.serial
      else !c.sKind.opens

/-- R46: after the fifth header character. -/
def State.checkHeader (s : State) : State :=
  if s.headerTaken then
    if s.sender.sendKind.opens then
      s.handHold.setSender { s.sender with phase := .window, count := Config.windowElements - 1 }
    else s.enterSendText
  else
    let t := s.setLiu s.liu.stop
    if s.sender.sendKind.opens then t.recontend else t.finishJob .aborted

/-- R39, R46: the five header codes. -/
def State.headerCodes (s : State) : List Code :=
  let o := s.loader.individual.getD .zero
  let d := s.sender.job.elim .zero Job.dest
  [o.c1, o.c2, s.sender.sendKind.code, d.c1, d.c2]

/-- R46: the Sender enters HEADER and hands the first header character. -/
def State.enterHeader (s : State) : State :=
  match s.headerCodes with
  | [] => s
  | c :: rest => (s.setSender { s.sender with phase := .header }).handHeader c rest

/-- R49: a hold element of TEXT has ended. At the count of 1500 the Sender hands nothing, and the close is HOLD_TIMEOUT's
(log 32). -/
def State.holdEnded (s : State) : State :=
  let n := s.sender.holds + 1
  let t := s.setSender { s.sender with holds := n }
  if n < Config.holdTimeout then t.handText else t

/-- R51: the sending ends at the WRU's stop, and the Sender enters YIELD. -/
def State.enterYield (s : State) : State :=
  (s.setLiu s.liu.stop).setSender { s.sender with phase := .yielding, wru := false, yld := .fresh }

/-- R46 to R51: an element or a whole character has ended and the Sender hands what follows. `hold` says that it was
a hold element. -/
def State.handNext (s : State) (hold : Bool) : State :=
  match s.sender.phase with
  | .lead =>
    if s.sender.count = 0 then s.enterHeader
    else s.handHold.setSender { s.sender with count := s.sender.count - 1 }
  | .header =>
    match s.sender.owed with
    | c :: rest => s.handHeader c rest
    | [] => s.checkHeader
  | .window =>
    if s.sender.count = 0 then s.enterSendText
    else s.handHold.setSender { s.sender with count := s.sender.count - 1 }
  | .text => if s.sender.wru then s.enterYield else if hold then s.holdEnded else s.handText
  | .stopping =>
    match s.sender.owed with
    | c :: rest => s.handCode c rest
    | [] => s.sendingSent
  | .idle => s.setLiu s.liu.stop
  | .waitGuard => s.setLiu s.liu.stop
  | .yielding => s.setLiu s.liu.stop
  | .watchLine => s.setLiu s.liu.stop

/-- An element of the sending has run its length. -/
def Liu.elemEnded (l : Liu) : Bool := l.drive = .sending && l.elem.any fun e => e.len ≤ l.elemIdx

/-- R6: the Sender, asked at the end of an element in SENDING, has handed nothing: the LIU sends a hold element of its own
accord. -/
def State.ownHold (s : State) : State := if s.liu.drive = .sending && s.liu.elem.isNone then s.handHold else s

/-- R4, R6, R7: the end of an element: the end of the sending, the character's next element, or what the Sender hands, a
hold element where that is nothing. -/
def State.elementEnd (s : State) : State :=
  let hold := s.liu.elem.any fun e => e.kind = .hold
  let t := s.setLiu s.liu.endElem
  if t.liu.endNow then t.setLiu t.liu.stop
  else
    match t.liu.elems with
    | k :: rest => t.setLiu { t.liu.beginElem k with elems := rest }
    | [] => (t.handNext hold).ownHold

/-- R49: 1500 hold elements have ended in TEXT. -/
def State.holdTimeoutDue (s : State) : Bool :=
  s.liu.drive = .sending && s.sender.phase = .text && Config.holdTimeout ≤ s.sender.holds

/-- R49, R50: the Sender enters STOPPING while an element is being sent: the close follows at its end. -/
def State.awaitStopping (s : State) : State :=
  s.setSender { s.sender with phase := .stopping, holds := 0, owed := closingCodes s.sender.lineCase }

/-- R49: the call is marked timed out, and the Sender enters STOPPING. DESIGN CHOICE (log 32): the close takes the place of
an own hold element of which nothing has been driven, and follows one that has begun. -/
def State.holdTimeout (s : State) : State :=
  let t := if s.jobServes then s.modLog fun r => { r with timedOut := true } else s
  if t.liu.elemIdx = 0 then t.enterStopping else t.awaitStopping

/-! ### Collision stop (R11, R52, R53) -/

/-- R11, R52: a mismatch: the LIU stops driving and a driving Sender enters WATCH-LINE. -/
def State.collisionStop (s : State) : State :=
  let t := s.setLiu s.liu.stop
  if s.sender.phase.driving then
    t.setSender { s.sender with phase := .watchLine, stopPhase := s.sender.phase, watch := 0, owed := [], wru := false }
  else t

/-- R53: the mismatch fell in the LEAD or HEADER of a MESSAGE or POLL. -/
def Sender.contending (x : Sender) : Bool :=
  (x.stopPhase = .lead || x.stopPhase = .header) && x.sendKind.opens

/-- R53: BREAK-SEEN ended the watch. -/
def State.classifyBreak (s : State) : State :=
  if s.sender.stopPhase = .window && s.sender.job.any fun j => s.individualDest j.dest then s.finishJob .refused
  else s.finishJob .broken

/-- R53: the 768th sample or REST-RECOGNISED ended the watch: LOST-ARBITRATION, COLLIDED or ABORTED. DESIGN CHOICE
(log 50): the call ends before the job. -/
def State.classifyWatch (s : State) : State :=
  if s.sender.contending then s.recontend
  else
    let t := if s.jobServes then s.endCall .aborted else s
    t.finishJob .aborted

/-- R52, R53: the watch has run its 768 samples and the line is not at REST. DESIGN CHOICE (log 56): where REST still
holds, none of R52's three ends comes, and the watch runs on until the line leaves REST; it is then classified as busy. -/
def State.watchEndDue (s : State) : Bool :=
  s.sender.phase = .watchLine && Config.watchSamples ≤ s.sender.watch && !s.liu.rest

/-- R52, R53: BREAK-SEEN at the Sender. -/
def State.senderBreak (s : State) : State :=
  if s.sender.phase.driving then
    ((s.setLiu { s.liu with endNow := true }).setSender
      { s.sender with phase := .watchLine, stopPhase := s.sender.phase, owed := [], wru := false }).classifyBreak
  else if s.sender.phase = .watchLine then s.classifyBreak
  else s

/-- R55: LINE-FAULT at the Sender. -/
def State.senderFault (s : State) : State :=
  match s.sender.phase with
  | .idle => s
  | .waitGuard => s.returnJob
  | _ => s.finishJob .aborted

/-- R44, R51: REST-ENDED at the Sender. -/
def State.senderRestEnded (s : State) : State :=
  let s := s.lapsePending
  match s.sender.phase with
  | .waitGuard => if s.sender.job.any Job.obligation then s.finishJob .lapsed else s
  | .yielding =>
    match s.sender.yld with
    | .fresh => s.setSender { s.sender with yld := .begun }
    | .begun => s
    | .answered => s.finishJob .aborted
  | _ => s

/-! ### The BREAK key (R67) -/

/-- R67. DESIGN CHOICE (log 50): the call ends before the job. DESIGN CHOICE (log 60): in YIELD as CALLER with another
station's sending on the line, R67's second and third rows both hold and it names no order: the second alone is taken, and
no burst is asked for. -/
def State.breakKey (s : State) : State :=
  if s.sender.phase.driving then
    let t := s.setLiu { s.liu with endNow := true }
    let u := if t.jobServes then t.endCall .aborted else t
    u.finishJob .aborted
  else if s.sender.phase = .yielding && s.roleIs .caller then
    let t := s.endCall .aborted
    if t.sender.phase = .yielding then t.finishJob .aborted else t
  else if s.tracker.call.isSome && !s.liu.rest then s.requestBurst
  else s

end Sys2Proof.Machine
end

