-- ==== Sys2Proof/Machine/LineOps.lean ====
section
/-! DEFINITION. What a sample, REST, a break and a line fault do: the LIU's detectors, the Listener and the Call
Tracker (R3, R8 to R15, R56 to R66). -/

namespace Sys2Proof.Machine

/-! ### Error events and figures (R30, R31, R62) -/

/-- R62: the call's own figures take an error event. -/
def LogRecord.errorEvent (r : LogRecord) : LogRecord := { r with errs := min 255 (r.errs + 1) }

/-- R62: an error event at the Call Tracker. -/
def State.trackError (s : State) : State :=
  match s.tracker.belongs with
  | .before => s.setTracker { s.tracker with errs := min 255 (s.tracker.errs + 1) }
  | .joined =>
    let t := s.modLog LogRecord.errorEvent
    if s.listener.phase = .text then t.markDoubtful else t
  | .outside => s

/-- R30: an error event goes to its four receivers. -/
def State.errorEvent (s : State) : State :=
  ((s.setQuality s.quality.event).setPort
    { s.port with errFlag := true, txn := s.port.txn.map fun x => { x with errSince := true } }).trackError

/-- R29, R62: the distortion of a delivered character at the Call Tracker. -/
def State.trackDistortion (s : State) (d : Nat) : State :=
  match s.tracker.belongs with
  | .before => s.setTracker { s.tracker with maxD := max s.tracker.maxD d }
  | .joined => s.modLog fun r => { r with maxD := max r.maxD d }
  | .outside => s

/-! ### Roles and openings (R60, R61, R68) -/

/-- R61: the role that a valid MESSAGE or POLL header gives, none for OUTSIDER. A Sender that a mismatch of the very same
sample has stopped is no longer in HEADER (DESIGN CHOICE, log 55). -/
def State.roleOf (s : State) (origin : StationCode) (kind : CallKind) (dest : StationCode) : Option Role :=
  if s.imageInvalid then some .watcher
  else if s.loader.individual = some origin && s.sender.phase = .header then some .caller
  else if s.loader.individual = some dest then some .called
  else if !s.individualDest dest then (if kind = .message then some .member else none)
  else if s.loader.straps.monitor then some .watcher
  else none

/-- R60: the serial after the last one. -/
def nextSerial (n : Nat) : Nat := if Config.lastSerial ≤ n then 1 else n + 1

/-- R68: a record as it is entered. -/
def Tracker.newRecord (t : Tracker) (role : Role) (origin : StationCode) (kind : CallKind) (dest : StationCode) :
    LogRecord where
  serial := nextSerial t.lastSerial
  role := role
  origin := origin
  dest := dest
  kind := kind
  outcome := none
  disp := none
  chars := 0
  errs := t.errs
  maxD := t.maxD
  doubtful := false
  timedOut := false
  noAnswerBack := false
  punch := .none
  answeredBy := none
  dirIndex := none
  deliveries := if kind = .poll then some 0 else none

/-- R60, R68: a call opens; its record takes a place of the ring. -/
def Tracker.open (t : Tracker) (r : LogRecord) : Tracker :=
  { t with
    lastSerial := r.serial
    call := some ⟨r, .active, false, 0, if r.kind = .poll then .poll else .message, false⟩
    belongs := .joined
    log := t.log.take (Config.logRecords - 1) }

/-- R142: the job of a CALLER is tied to its call, and its entry where that is in SENDING. -/
def State.tieJob (s : State) (serial : Nat) : State :=
  match s.sender.job with
  | none => s
  | some j =>
    let t := s.setSender { s.sender with job := some { j with callSerial := some serial } }
    match j.source with
    | .store (some i) => t.setStore (t.store.setSending i (some serial))
    | _ => t

/-- R61: the selection event of a MESSAGE header. -/
def selectionEvent (role : Role) (dest : StationCode) : Option (BitVec 4) :=
  match role with
  | .called => some 0
  | .member => if dest = .all then some 2 else some 1
  | .caller => none
  | .watcher => none

/-- R60, R61, R114, R150: a call opens at a header that gives a role. -/
def State.openCall (s : State) (role : Role) (origin : StationCode) (kind : CallKind) (dest : StationCode) : State :=
  let s := s.endCallR63
  let r := s.tracker.newRecord role origin kind dest
  let s := s.setTracker (s.tracker.open r)
  let s := s.setPunch { s.punch with claim := some .notWanted }
  let s := s.setAnswer
    { s.answer with
      pending := false, poll := []
      disp := if kind = .message then some (s.openDisp origin dest false) else s.answer.disp }
  let s := if role = .caller then s.tieJob r.serial else s
  match if kind = .message then selectionEvent role dest else none with
  | some ev => s.raise ev (some r.serial)
  | none => s

/-- R63: the sending does not belong to the held call. -/
def State.outside (s : State) : State := s.endJudging.setTracker { s.endJudging.tracker with belongs := .outside }

/-- R61: a valid MESSAGE or POLL header. -/
def State.openingHeader (s : State) (origin : StationCode) (kind : CallKind) (dest : StationCode) : State :=
  match s.roleOf origin kind dest with
  | some role => s.openCall role origin kind dest
  | none => s.outside

/-- R63: an ANSWER, CONTINUE or DELIVER fits the held call. -/
def Call.fits (c : Call) (origin : StationCode) (kind : SendKind) (dest : StationCode) : Bool :=
  c.state = .judging &&
    (match kind with
     | .answer => origin = c.log.dest && dest = c.log.origin
     | .deliver => origin = c.log.dest && dest = c.log.origin
     | .cont => origin = c.log.origin
     | .message => false
     | .poll => false)

/-- R62, R63, R66: the held call after a fitting header. -/
def Call.take (c : Call) (kind : SendKind) (errs maxD : Nat) : Call :=
  let n := if kind = .deliver then min 8 (c.deliveries + 1) else c.deliveries
  { c with
    state := .active, sKind := kind, deliveries := n
    log :=
      { c.log with
        errs := min 255 (c.log.errs + errs), maxD := max c.log.maxD maxD
        answeredBy := if kind = .answer then some [] else c.log.answeredBy
        deliveries := c.log.deliveries.map fun _ => n } }

/-- R51: a fitting ANSWER reaches a Sender in YIELD (log 11). -/
def State.yieldAnswered (s : State) : State :=
  if s.sender.phase = .yielding then s.setSender { s.sender with yld := .answered } else s

/-- R153: a fitting DELIVER at the collector opens a record and decides it. DESIGN CHOICE (log 36): it takes the place of
a record of the call's MESSAGE. -/
def State.deliverHeader (s : State) (origin dest : StationCode) : State :=
  if s.roleIs .caller then s.decide (s.openDisp origin dest true) else s

/-- R63: a header of another kind fits the held call. -/
def State.fittingHeader (s : State) (origin : StationCode) (kind : SendKind) (dest : StationCode) : State :=
  let t := s.modCall fun c => c.take kind s.tracker.errs s.tracker.maxD
  let t := (t.setTracker { t.tracker with belongs := .joined }).yieldAnswered
  if kind = .deliver then t.deliverHeader origin dest else t

/-- R63: a valid ANSWER, CONTINUE or DELIVER header. -/
def State.followingHeader (s : State) (origin : StationCode) (kind : SendKind) (dest : StationCode) : State :=
  if s.tracker.call.any fun c => c.fits origin kind dest then s.fittingHeader origin kind dest else s.outside

/-- R57, R61, R63: the header result. -/
def State.headerResult (s : State) (h : Hdr) : State :=
  let s := s.setListener { s.listener with hdr := h }
  match h with
  | .pending => s
  | .invalid => s.outside
  | .valid o .message d => s.openingHeader o .message d
  | .valid o .poll d => s.openingHeader o .poll d
  | .valid o k d => (s.followingHeader o k d).enterText

/-! ### Text characters (R59, R62, R66) -/

/-- R62, R66: the held call after a text code. -/
def Call.textCode (c : Call) (code : Code) (eom : Bool) : Call :=
  { c with
    eom := eom
    log :=
      { c.log with
        chars := min 65535 (c.log.chars + 1)
        answeredBy :=
          if c.sKind = .answer then c.log.answeredBy.map fun l => (l ++ [code]).take 20 else c.log.answeredBy } }

/-- R164: the codes of a POLL at the polled station. -/
def State.gatherPoll (s : State) (c : Code) (err : Bool) : State :=
  if s.tracker.call.any fun g => g.sKind = .poll && g.log.role = .called then
    s.setAnswer { s.answer with poll := (s.answer.poll ++ [(c, err)]).take 7 }
  else s

/-- R160: whether the last text code of the message was EOM. -/
def State.dispEom (s : State) (eom : Bool) : State :=
  s.setAnswer { s.answer with disp := s.answer.disp.map fun d => { d with eom := eom } }

/-- R162: a WRU in the text of a MESSAGE or CONTINUE at a CALLED station. -/
def State.wruHeard (s : State) : State :=
  if s.tracker.call.any fun c => c.log.role = .called && (c.sKind = .message || c.sKind = .cont) then
    s.setAnswer { s.answer with pending := true }
  else s

/-- R66: a text code of a sending of the held call. DESIGN CHOICE (log 23): a BELL code is passed to the disposition before
event 4 is taken. At the punch either may come first (`State.bellText`, log 63). -/
def State.callText (s : State) (c : Code) (err : Bool) (k : Case) (fn : Option TextFn) : State :=
  let s := s.modCall fun g => g.textCode c (fn = some .eom)
  let s := s.gatherPoll c err
  let s :=
    if s.passesText then
      let t := (s.dispEom (fn = some .eom)).passCode c err k
      if fn = some .bell then t.bellText c else t.punchCode c
    else s
  if fn = some .wru then s.wruHeard else s

/-- R59: a text CHARACTER at the Listener. -/
def State.textChar (s : State) (c : Code) (err : Bool) : State :=
  let k0 := s.listener.textCase
  let k := if err then k0 else trackCase s.loader.straps.usos k0 c
  let t := s.setListener { s.listener with textCase := k }
  if t.tracker.belongs = .joined && t.tracker.call.isSome then t.callText c err k (textFn k0 err c) else t

/-! ### The reply window (R58) -/

/-- The Listener counts the reply window of a valid MESSAGE or POLL header. -/
def Listener.inWindow (l : Listener) : Bool :=
  l.phase = .header &&
    (match l.hdr with
     | .valid _ .message _ => true
     | .valid _ .poll _ => true
     | _ => false)

/-- R58: a marking element. -/
def State.markElement (s : State) : State :=
  if s.listener.inWindow then s.setListener { s.listener with window := s.listener.window + 1 } else s

/-- R58: REFUSAL-POINT is handed. -/
def State.giveRefusalPoint (s : State) : State :=
  let t := s.setListener { s.listener with refusalGiven := true }
  if t.tracker.belongs = .joined then t.refusalPoint else t

/-- R58, R152: WINDOW-END is handed and the Listener enters TEXT. -/
def State.giveWindowEnd (s : State) : State :=
  (if s.tracker.belongs = .joined then s.decideWindow else s).enterText

/-- R58: a CHARACTER ends the window early. -/
def State.earlyChar (s : State) (c : Code) (err : Bool) : State :=
  let t := if s.listener.refusalGiven then s else s.giveRefusalPoint
  t.giveWindowEnd.textChar c err

/-- R56 to R59: a CHARACTER at the Listener. -/
def State.character (s : State) (c : Code) (err : Bool) : State :=
  match s.listener.phase with
  | .header =>
    match s.listener.hdr with
    | .pending =>
      let cs := s.listener.chars ++ [(c, err)]
      let t := s.setListener { s.listener with chars := cs }
      if 5 ≤ cs.length then t.headerResult (headerOf cs) else t
    | .invalid => s
    | .valid _ _ _ => s.earlyChar c err
  | .text => s.textChar c err
  | .atRest => s
  | .leadWatch => s
  | .unframed => s

/-- R56, R62, R169: LEAD-IN. -/
def State.leadIn (s : State) : State :=
  if s.listener.phase = .leadWatch then
    ((s.setListener
        { s.listener with phase := .header, chars := [], hdr := .pending, window := 0, refusalGiven := false }).setTracker
      { s.tracker with errs := 0, maxD := 0, belongs := .before }).wake
  else s

/-- R56, R63: UNFRAMED. -/
def State.unframed (s : State) : State :=
  if s.listener.phase = .leadWatch then (s.setListener { s.listener with phase := .unframed }).outside else s

/-- One report of the Framer. -/
def State.report (s : State) : Report → State
  | .leadIn => s.leadIn
  | .unframed => s.unframed
  | .markElement => s.markElement
  | .errorEvent => s.errorEvent
  | .character c err d => (s.trackDistortion d).character c err

/-! ### REST (R8, R19, R63) -/

/-- R8, R44, R51, R56, R63: REST-ENDED. -/
def State.restEnded (s : State) : State :=
  let s := (s.setLiu { s.liu with rest := false }).senderRestEnded
  let s := if s.listener.phase = .atRest then s.setListener { s.listener with phase := .leadWatch } else s
  s.modCall fun c => if c.state = .holding then { c with state := .judging } else c

/-- R56, R160: a sending ends at the Listener. -/
def State.listenerEnd (s : State) (broken : Bool) : State :=
  let t := if s.listener.phase = .atRest then s else s.endDeliver broken
  let u := t.setListener { t.listener with phase := .atRest, chars := [], hdr := .pending }
  u.setTracker { u.tracker with belongs := .outside }

/-- R63: the end of a sending, or REST without one, at the Call Tracker. -/
def State.callRest (s : State) : State :=
  match s.tracker.call with
  | none => s
  | some c =>
    match c.state with
    | .judging => s.endCallR63
    | .active => s.modCall fun g => { g with state := .holding }
    | .holding => s

/-- R162 to R165: the Answering Unit at REST-RECOGNISED; `poll` says that a POLL sending to this station ended. DESIGN
CHOICE (log 54): where an answer is pending between two deliveries, the ANSWER alone is given here. -/
def State.answerRest (s : State) (poll : Bool) : State :=
  if s.answer.pending then (s.setAnswer { s.answer with pending := false }).giveAnswer
  else if poll then s.pollEnded
  else s.collectionRest

/-- R164: the sending that ends is the POLL of a call in which the role is CALLED. -/
def State.pollEnding (s : State) : Bool :=
  s.tracker.call.any fun c =>
    c.state = .active && c.sKind = .poll && c.log.kind = .poll && c.log.role = .called

/-- R8: the quiet counter has reached 768. -/
def State.restDue (s : State) : Bool :=
  s.enabled && !s.liu.faultIn && Config.restSamples ≤ s.liu.quiet && !s.liu.rest

/-- R8, R19, R53, R56, R63, R162 to R165: REST-RECOGNISED. DESIGN CHOICE (log 26): a watch that ends here is classified
before the Call Tracker takes the end of the sending, so that a call that the job serves ends ABORTED (R53), whatever R63
would give it. -/
def State.restRecognised (s : State) : State :=
  let s := (s.setLiu { s.liu with rest := true }).setFramer s.framer.rest
  let s := if s.sender.phase = .watchLine then s.classifyWatch else s
  let poll := s.pollEnding
  ((s.listenerEnd false).callRest).answerRest poll

/-- R63: the hold limit. -/
def State.holdLimitDue (s : State) : Bool :=
  s.liu.rest && Config.holdLimit ≤ s.restCount && s.tracker.call.any fun c => c.state = .holding

/-! ### Break (R9, R65) -/

/-- R9: BREAK-SEEN is due. -/
def State.breakDue (s : State) : Bool :=
  s.enabled && s.liu.hold = Config.breakSamples && !s.liu.breakRaised

/-- R65: the two exceptions. -/
def State.refusedByBreak (s : State) (c : Call) : Bool :=
  (c.log.role = .caller && c.sKind = .message && s.listener.inWindow && s.individualDest c.log.dest) ||
    s.answer.disp.any fun d => d.refusal

/-- R63, R65: BREAK-SEEN at the Call Tracker. -/
def State.callBreak (s : State) : State :=
  match s.tracker.call with
  | none => s
  | some c =>
    match c.state with
    | .active => s.endCall (if s.refusedByBreak c then .refused else .broken)
    | .judging => s.endCallR63
    | .holding => s

/-- R162, R164: a sending that ends at BREAK-SEEN or LINE-FAULT. -/
def State.answerCut (s : State) : State := s.setAnswer { s.answer with pending := false, poll := [] }

/-- R9, R27, R52, R56, R65: BREAK-SEEN. DESIGN CHOICE (log 50): the end of a DELIVER's message closes its entry before
CALL-END can (R139, R160), and the call ends before the job. -/
def State.breakSeen (s : State) : State :=
  let s := (s.setLiu { s.liu with breakRaised := true }).raise 5 none
  let s := if s.listener.phase = .atRest then s else s.endDeliver true
  let s := s.callBreak
  let s := ((s.listenerEnd true).setFramer s.framer.break).setGauge ⟨[]⟩
  (s.answerCut).senderBreak

/-! ### Line fault (R14, R27, R55, R65) -/

/-- The Framer and the Gauge take a sample, and their reports are acted on in order. -/
def State.frameSample (s : State) (x : Level) : State :=
  let r := s.framer.sample s.gauge (marginOf s.loader.straps.margin) x
  r.reports.foldl State.report ((s.setFramer r.framer).setGauge r.gauge)

/-- R65: the outcome of a call that a line fault ends. -/
def State.faultOutcome (s : State) (c : Call) : CallOutcome :=
  if s.jobServes then .aborted
  else if c.state != .active && c.eom then .complete
  else .incomplete

/-- R27: the stand-down of the Framer at LINE-FAULT. Where the sample is taken first, the Framer has decided on the first
faulted sample of a character in progress, as Z, before that; the Listener, which has ended the sending, discards what
is delivered then. Which order occurs is the spec's to leave open: a free value for each line fault (log 31). -/
def State.standDown (s : State) : State :=
  let t := if s.framer.state = .assemble && Config.faultedSampleFirst s.liu.faults then s.frameSample .z else s
  (t.setFramer t.framer.standDown).setGauge ⟨[]⟩

/-- R14, R27, R55, R56, R65: the effects of the first faulted sample (log 5). The model counts the line faults, for the
free value of `State.standDown` (log 31). -/
def State.lineFault (s : State) : State :=
  let s := s.setLiu
    { s.liu.stop with
      faultLatch := true, quiet := 0, hold := 0, breakRaised := false, lastLevel := .z, faults := s.liu.faults + 1 }
  let s := match s.tracker.call with
    | some c => s.endCall (s.faultOutcome c)
    | none => s
  let s := s.senderFault
  let s := if s.liu.rest then s.restEnded else s
  ((s.listenerEnd false).standDown).answerCut

/-! ### One sample (R3, R8 to R11) -/

/-- R8, R9: the quiet and hold counters after a sample read as `x`. -/
def Liu.count (l : Liu) (x : Level) : Liu :=
  if l.faultIn then { l with quiet := 0, hold := 0, breakRaised := false, lastLevel := .z }
  else if x = .z then
    { l with quiet := min Config.quietCeiling (l.quiet + 1), hold := 0, breakRaised := false, lastLevel := .z }
  else
    let h := if x = l.lastLevel then min Config.breakSamples (l.hold + 1) else 1
    { l with
      quiet := 0, hold := h, breakRaised := l.breakRaised && h = Config.breakSamples, lastLevel := x }

/-- R10: the sample of the element at which the echo is compared. -/
def TxElem.compared (e : TxElem) (n : Nat) : Bool := n = 32 || (n = 96 && e.len = 128)

/-- R10, R11: the echo comparison finds a mismatch at this sample. -/
def Liu.mismatch (l : Liu) (x : Level) : Bool :=
  l.drive = .sending && l.elem.any fun e => e.compared l.elemIdx && x != e.level

/-- R10, R11, R13, R52: what a sample moves on in the drive states, and the watch. It comes first in the sample (log 55). -/
def State.driveSample (s : State) (x : Level) : State :=
  if s.liu.mismatch x then s.collisionStop
  else
    let t := match s.liu.drive with
      | .sending => s.setLiu { s.liu with elemIdx := s.liu.elemIdx + 1 }
      | .burst => s.setLiu { s.liu with burstN := s.liu.burstN + 1 }
      | .off => s
    if t.sender.phase = .watchLine then t.setSender { t.sender with watch := t.sender.watch + 1 } else t

/-- R1: the element tick phase moves on by one sample, or stays at the tick already taken. -/
def Liu.tickSample (l : Liu) : Liu :=
  if l.tickEarly then { l with tickPhase := 0, tickEarly := false } else { l with tickPhase := l.tickPhase + 1 }

/-- R3, R8 to R11, R14: one line sample. DESIGN CHOICE (log 55): the echo is compared, and a mismatch stops the Sender,
before the detectors and the Framer take the sample. So where it is also the stop sample of the own fifth header
character, the header's role (R61) finds the Sender in WATCH-LINE and no longer in HEADER. -/
def State.sampleLine (s : State) (rxP rxN : Bool) : State :=
  let s := if s.liu.faultIn && !s.liu.faultLatch then s.lineFault else s
  let x := if s.liu.faultIn then .z else readLevel rxP rxN
  let s := s.driveSample x
  let s := s.setLiu (s.liu.count x)
  let s := if x != .z && s.liu.rest then s.restEnded else s
  let s := s.frameSample x
  s.setLiu s.liu.tickSample

/-! ### Element ticks (R34 to R37) -/

/-- R1, R36: the element tick may be taken at the 64th sample, or ahead of it at that sample. -/
def Liu.tickDue (l : Liu) : Bool :=
  l.divisor.isSome && (Config.elementSamples ≤ l.tickPhase || (l.tickPhase = 63 && !l.tickEarly))

/-- R34: an element tick. -/
def State.elementTick (s : State) : State :=
  let l := s.liu
  let l :=
    if Config.elementSamples ≤ l.tickPhase then { l with tickPhase := l.tickPhase - Config.elementSamples }
    else { l with tickEarly := true }
  (s.setLiu l).setQuality { s.quality with fine := s.quality.fine.tick, coarse := s.quality.coarse.tick }

/-- R37: the QUALITY event of a value of LQ. -/
def qualityEvent : LQ → BitVec 4
  | .good => 12
  | .fair => 10
  | .poor => 11

/-- R35, R37, R62: the flags change, and LQ with them. -/
def State.flagChange (s : State) : State :=
  let q := { s.quality with fine := s.quality.fine.flagChange, coarse := s.quality.coarse.flagChange }
  let t := s.setQuality q
  if q.lq = s.quality.lq then t
  else
    let t := if q.lq != .good && t.listener.phase = .text && t.tracker.belongs = .joined then t.markDoubtful else t
    t.raise (qualityEvent q.lq) none

end Sys2Proof.Machine
end

