-- ==== Sys2Proof/Machine/KeyOps.lean ====
section
/-! DEFINITION. The Keyboard Encoder's operations (chapter 4) and the prepare writer (R81). -/

namespace Sys2Proof.Machine

/-! ### Scanning (R70, R71, R73, R88) -/

/-- R71: one scan reading of a key; in the first scan after reset a closed key is DOWN at once. -/
def Key.scan (k : Key) (first closed : Bool) : Key := if first then ⟨closed, 0⟩ else k.read closed

/-- R70: the keys of the driven row are read; `i` numbers the positions. -/
def scanKeys (first : Bool) (row : Nat) (cols : BitVec 8) : Nat → List Key → List Key
  | _, [] => []
  | i, k :: ks => (if i / 8 = row then k.scan first (cols.getLsbD (i % 8)) else k) :: scanKeys first row cols (i + 1) ks

/-- R88: a key of the driven row reads contrary to its debounced state. -/
def rowActive (row : Nat) (cols : BitVec 8) : Nat → List Key → Bool
  | _, [] => false
  | i, k :: ks => (i / 8 = row && cols.getLsbD (i % 8) != k.down) || rowActive row cols (i + 1) ks

/-- The function keys are read. -/
def scanFns (first : Bool) : List Bool → List Key → List Key
  | x :: xs, k :: ks => k.scan first x :: scanFns first xs ks
  | _, ks => ks

/-- R88: a function key reads contrary to its debounced state. -/
def fnsActive : List Bool → List Key → Bool
  | x :: xs, k :: ks => x != k.down || fnsActive xs ks
  | _, _ => false

/-- R73: one scan reading of a switch; the first scan after reset gives the position. -/
def Switch.scan {α : Type} [DecidableEq α] (w : Switch α) (first : Bool) (x : α) : Switch α :=
  if first then ⟨x, x, 0⟩ else w.read x

/-- R88: activity at this scan tick. -/
def Kbd.active (k : Kbd) (i : TickInputs) : Bool :=
  rowActive k.row i.cols 0 k.keys ||
    (k.row = 7 &&
      (fnsActive (fnReadings i) k.fns || modeRead i.mode != k.mode.pos || punchRead i.punch != k.punchSw.pos ||
        i.attended != k.attended.pos))

/-- R70, R71, R73: the driven row is read, and at row 7 the function keys and switches. -/
def Kbd.scanRow (k : Kbd) (i : TickInputs) (watch : Bool) : Kbd :=
  let keys := scanKeys k.firstScan k.row i.cols 0 k.keys
  let wait := if watch then 7 else 0
  if k.row = 7 then
    { k with
      row := 0, scanWait := wait, firstScan := false, keys := keys
      fns := scanFns k.firstScan (fnReadings i) k.fns
      mode := k.mode.scan k.firstScan (modeRead i.mode)
      punchSw := k.punchSw.scan k.firstScan (punchRead i.punch)
      attended := k.attended.scan k.firstScan i.attended }
  else { k with row := k.row + 1, scanWait := wait, keys := keys }

/-! ### Down and up events (R71, R72) -/

/-- The state of a matrix key. -/
def Kbd.key (k : Kbd) (p : BitVec 6) : Key := k.keys.getD p.toNat .up

/-- The state of a function key. -/
def Kbd.fnKey (k : Kbd) (f : FnKey) : Key := k.fns.getD (fnIdx f) .up

/-- R72: a lower column of the same row has its down event at the same tick. -/
def Kbd.lowerDue (k : Kbd) (p : BitVec 6) : Bool :=
  ((k.keys.drop (8 * (p.toNat / 8))).take (p.toNat % 8)).any Key.downDue

/-- R71, R72: the down event of a matrix key is due. -/
def Kbd.keyDownDue (k : Kbd) (p : BitVec 6) : Bool := (k.key p).downDue && !k.lowerDue p

/-- R72: the other matrix keys that are DOWN. -/
def Kbd.othersDown (k : Kbd) (p : BitVec 6) : Nat := (k.keys.set p.toNat .up).countP Key.down

/-- R71: a matrix key becomes DOWN or UP. -/
def Kbd.setKey (k : Kbd) (p : BitVec 6) (down : Bool) : Kbd := { k with keys := k.keys.set p.toNat ⟨down, 0⟩ }

/-- R71: a function key becomes DOWN or UP. -/
def Kbd.setFn (k : Kbd) (f : FnKey) (down : Bool) : Kbd := { k with fns := k.fns.set (fnIdx f) ⟨down, 0⟩ }

/-- R71: the up event of a key is due. -/
def Kbd.keyUpDue (k : Kbd) : KeyId → Bool
  | .matrix p => (k.key p).upDue
  | .fn f => (k.fnKey f).upDue

/-- R71: the up event. -/
def Kbd.keyUp (k : Kbd) : KeyId → Kbd
  | .matrix p => k.setKey p false
  | .fn f => k.setFn f false

/-! ### Entries (R74, R75, R87) -/

/-- R82: a sequence error. -/
def Kbd.seqError (k : Kbd) : Kbd := { k with seq := true }

/-- R75: a refusal for a lack other than a full type-ahead. -/
def Kbd.lockRefuse (k : Kbd) : Kbd := { k with lockTimer := some Config.lockTicks }

/-- R74: the local case tracker after an entry that carries the field. -/
def localTrack (usos : Bool) (t : Case) (code : Option Code) (kcase : Option Case) : Case :=
  match kcase with
  | some k => k
  | none =>
    match code with
    | some c => trackCase usos t c
    | none => t

/-- R74: an entry as it is made, and the keyboard with it at the tail; `withLocal` says that it carries the local
case field. -/
def Kbd.makeEntry (k : Kbd) (usos withLocal : Bool) (code : Option Code) (kcase : Option Case) (r : Route) : Kbd :=
  if withLocal then
    let t := localTrack usos k.localCase code kcase
    { k with localCase := t }.join ⟨code, kcase, r, some t⟩
  else k.join ⟨code, kcase, r, none⟩

/-- R74: the entry carries the local case field. -/
def State.carriesLocal (s : State) (r : Route) : Bool := r = .loc || (r = .line && s.localLoop)

/-- R74, R75, R87: a CODE entry joins, and is offered to the punch with PUNCH ON. -/
def State.makeCode (s : State) (c : Code) (kcase : Option Case) (r : Route) : State :=
  let usos := s.loader.straps.usos
  let t := s.setKbd (s.kbd.makeEntry usos (s.carriesLocal r) (some c) kcase r)
  if t.kbd.punchSw.pos = .on && r != .line then t.setPunch (t.punch.offerKeyboard usos c kcase) else t

/-- R78, R81: an END-MARKER joins. -/
def State.makeEnd (s : State) (r : Route) : State :=
  s.setKbd (s.kbd.makeEntry s.loader.straps.usos (s.carriesLocal r) none none r)

/-! ### Matrix keys (R77, R78, R80, R81) -/

/-- R77: a text key. -/
def State.textKey (s : State) (p : BitVec 6) : State :=
  let refuse := s.setKbd s.kbd.seqError
  match s.kbd.mode.pos with
  | .loc => if s.kbd.locked then s else s.makeCode (keyCode p) (keyCase p) .loc
  | .line =>
    match s.kbd.setup with
    | .openLine _ => if s.kbd.locked then s else s.makeCode (keyCode p) (keyCase p) .line
    | _ => refuse
  | .prepare =>
    match s.kbd.setup with
    | .openPrepare _ i =>
      if s.kbd.locked then s
      else if s.store.canGrow i 1 then s.makeCode (keyCode p) (keyCase p) .prepare
      else s.setKbd s.kbd.lockRefuse
    | _ => refuse

/-- R82: a destination is refused and the set-up returns to READY. -/
def Kbd.badDest (k : Kbd) : Kbd := { k.seqError with setup := .ready }

/-- R81, R134, R141: the store is asked to create the prepared entry. -/
def State.createPrepared (s : State) (d : StationCode) : State :=
  let r := s.store.create
    ⟨if d = .zero then .held else .prepared, s.loader.individual.getD .zero, d, 0, false, false⟩
  match r.2 with
  | none => (s.setStore r.1).setKbd { s.kbd.lockRefuse with setup := .ready }
  | some i =>
    ((s.setStore r.1).setKbd { s.kbd with setup := .openPrepare d i, prep := some i, prepCase := .low }).raiseHigh true

/-- R78, R80, R81: the second destination element. -/
def State.destDone (s : State) (r : SetupRoute) (d : StationCode) : State :=
  match r with
  | .line =>
    if d.noZero then s.setKbd { s.kbd with request := some ⟨d, none, false⟩, setup := .openLine d }
    else s.setKbd s.kbd.badDest
  | .collect => if d.noZero then s.setKbd { s.kbd with setup := .code d [] } else s.setKbd s.kbd.badDest
  | .prepare => if d.noZero || d = .zero then s.createPrepared d else s.setKbd s.kbd.badDest

/-- R80: an access code; the fourth posts the POLL request. -/
def Kbd.accessKey (k : Kbd) (d : StationCode) (taken : List Code) (c : Code) : Kbd :=
  if taken.length < 3 then { k with setup := .code d (taken ++ [c]) }
  else { k with request := some ⟨d, some (taken ++ [c]), false⟩, setup := .ready }

/-- R77: a matrix key that is neither dead nor locked out acts. -/
def State.matrixKey (s : State) (p : BitVec 6) : State :=
  match s.kbd.setup with
  | .dest1 r => s.setKbd { s.kbd with setup := .dest2 r (keyCode p) }
  | .dest2 r d1 => s.destDone r ⟨d1, keyCode p⟩
  | .code d taken => s.setKbd (s.kbd.accessKey d taken (keyCode p))
  | .ready => s.textKey p
  | .openLine _ => s.textKey p
  | .openPrepare _ _ => s.textKey p

/-- R71, R72, R77: the down event of a matrix key. -/
def State.keyDown (s : State) (p : BitVec 6) : State :=
  let locked := 2 ≤ s.kbd.othersDown p
  let t := s.setKbd (s.kbd.setKey p true)
  if locked || keyDead p then t else t.matrixKey p

/-! ### Function keys (R78 to R85) -/

/-- READY, or a DEST or CODE state: a sequence may begin. -/
def Setup.canBegin : Setup → Bool
  | .ready => true
  | .dest1 _ => true
  | .dest2 _ _ => true
  | .code _ _ => true
  | .openLine _ => false
  | .openPrepare _ _ => false

/-- A DEST or CODE state. -/
def Setup.unfinished (u : Setup) : Bool := u.canBegin && u != .ready

/-- R78, R80, R81: a sequence begins. -/
def Kbd.begin (k : Kbd) (r : SetupRoute) : Kbd := { k with seq := false, setup := .dest1 r }

/-- R78, R81, R82: CALL. -/
def Kbd.callKey (k : Kbd) : Kbd :=
  match k.mode.pos with
  | .line => if k.request.isNone && k.setup.canBegin then k.begin .line else k.seqError
  | .loc => k.seqError
  | .prepare => if k.prep.isNone && k.setup.canBegin then k.begin .prepare else k.seqError

/-- R80, R82: COLLECT. -/
def Kbd.collectKey (k : Kbd) : Kbd :=
  if k.mode.pos = .line && k.request.isNone && k.setup.canBegin then k.begin .collect else k.seqError

/-- The set-up returns to READY. -/
def State.setupReady (s : State) : State := s.setKbd { s.kbd with setup := .ready }

/-- R78, R81, R82: END. -/
def State.endKey (s : State) : State :=
  match s.kbd.setup with
  | .ready => s
  | .openLine _ => if s.kbd.locked then s else (s.makeEnd .line).setupReady
  | .openPrepare _ _ =>
    if s.kbd.mode.pos = .loc || s.kbd.locked then s else (s.makeEnd .prepare).setupReady
  | _ => if s.kbd.mode.pos = .loc then s else s.setKbd s.kbd.badDest

/-- R85: the route that HERE-IS takes, none for a sequence error. -/
def Kbd.hereIsRoute (k : Kbd) : Option Route :=
  match k.mode.pos, k.setup with
  | .loc, _ => some .loc
  | .line, .openLine _ => some .line
  | .prepare, .openPrepare _ _ => some .prepare
  | _, _ => none

/-- R85: the store has room for twenty cells, where the route needs it. -/
def State.hereIsRoom (s : State) : Bool :=
  match s.kbd.mode.pos, s.kbd.setup with
  | .prepare, .openPrepare _ i => s.store.canGrow i Config.hereIsCodes
  | _, _ => true

/-- R82, R85: HERE-IS. -/
def State.hereIs (s : State) : State :=
  if s.kbd.setup.unfinished then s.setKbd s.kbd.badDest
  else
    match s.kbd.hereIsRoute with
    | none => s.setKbd s.kbd.seqError
    | some r =>
      if s.kbd.locked then s
      else if Config.typeAhead < s.kbd.queue.length + Config.hereIsCodes || !s.hereIsRoom then
        s.setKbd s.kbd.lockRefuse
      else s.answer.answerBack.foldl (fun t c => t.makeCode c none r) s

/-- The route of the current MODE. -/
def ModePos.route : ModePos → Route
  | .line => .line
  | .loc => .loc
  | .prepare => .prepare

/-- R83, R84: the open prepared entry is discarded. -/
def State.discardPrepared (s : State) : State :=
  match s.kbd.prep with
  | some i => (s.setStore (s.store.remove i)).setKbd { s.kbd with prep := none }
  | none => s

/-- R83: the slot holds the keyboard's job in WAIT-GUARD. -/
def State.requestWaiting (s : State) : Bool :=
  s.sender.phase = .waitGuard &&
    s.sender.job.any fun j =>
      match j.source with
      | .keyboard => true
      | .access _ => true
      | _ => false

/-- R83: CANCEL in MODE LINE, after the removal. -/
def State.cancelRequest (s : State) : State :=
  match s.kbd.request with
  | none => s
  | some r =>
    if !r.taken then s.setKbd { s.kbd with request := none }
    else if s.requestWaiting then s.emptySlot.setKbd { s.kbd with request := none }
    else if r.access.isNone && s.kbd.queue.length < Config.typeAhead then s.makeEnd .line
    else s

/-- R83: CANCEL. -/
def State.cancelKey (s : State) : State :=
  let m := s.kbd.mode.pos
  let t := s.setKbd { s.kbd.removeRoute (ModePos.route m) with setup := .ready, seq := false }
  match m with
  | .line => t.cancelRequest
  | .loc => t
  | .prepare => t.discardPrepared

/-- R71: the down event of a function key, and what the key does. -/
def State.fnDown (s : State) (f : FnKey) : State := s.setKbd (s.kbd.setFn f true)

/-! ### Switches (R73, R84, R120, R121) -/

/-- R120: KEYBOARD ownership is released. -/
def Punch.releaseKeyboard (p : Punch) : Punch := if p.own.any fun o => o.tag = .keyboard then p.release else p

/-- R84: the set-up at a change of MODE. -/
def State.modeSetup (s : State) : State :=
  match s.kbd.setup with
  | .openPrepare _ _ =>
    s.discardPrepared.setKbd
      { s.discardPrepared.kbd.removeRoute .prepare with setup := .ready, seq := true }
  | .openLine _ => s
  | .ready => s
  | _ => s.setupReady

/-- R84, R120: the MODE switch takes its new position. -/
def State.modeChange (s : State) : State :=
  let t := (s.setKbd { s.kbd with mode := s.kbd.mode.change }).modeSetup
  t.setPunch t.punch.releaseKeyboard

/-- R121, R125: the PUNCH switch takes its new position. -/
def State.punchChange (s : State) : State :=
  let old := s.kbd.punchSw.pos
  let t := s.setKbd { s.kbd with punchSw := s.kbd.punchSw.change }
  match t.kbd.punchSw.pos with
  | .off =>
    let r := t.punch.switchOff
    (t.setPunch r.1).setTracker (t.tracker.setIncomplete r.2)
  | .auto => if old = .on then t.setPunch t.punch.releaseKeyboard else t
  | .on => t

/-! ### The prepare writer (R81) -/

/-- R81: cells are written until one is answered EXHAUSTED; the rest are discarded and the timer starts. -/
def State.writePrepared (s : State) (i : Nat) : List Code → State
  | [] => s
  | c :: cs =>
    let r := s.store.writeCell i c false
    match r.2 with
    | .written grew =>
      (((s.setStore r.1).setKbd
        { s.kbd with prepCase := trackCase s.loader.straps.usos s.kbd.prepCase c }).raiseHigh grew).writePrepared i cs
    | .exhausted => (s.setStore r.1).setKbd s.kbd.lockRefuse

/-- R76, R81: a PREPARE entry stands at the head. -/
def State.prepareDue (s : State) : Bool := s.complete && s.kbd.queue.head?.any fun e => e.route = .prepare

/-- R81: the prepare writer takes the head entry. -/
def State.takePrepare (s : State) : State :=
  match s.kbd.queue with
  | [] => s
  | e :: _ =>
    let t := s.setKbd s.kbd.pop
    match t.kbd.prep with
    | none => t
    | some i =>
      match e.code with
      | some c => t.writePrepared i (keyboardCodes t.kbd.prepCase c e.kcase)
      | none => (t.setStore (t.store.finishPrepared i)).setKbd { t.kbd with prep := none }

end Sys2Proof.Machine
end

