-- ==== Sys2Proof/Machine/MechOps.lean ====
section
/-! DEFINITION. The housekeeping tick (R1, R70, R168), the enqueue right and the drain with the store behind them
(R94 to R98), readiness, the motor, and the tape inputs. -/

namespace Sys2Proof.Machine

/-! ### The LOCAL producer (R16, R74, R94) -/

/-- R94: LOCAL takes the entry. -/
def State.localTakes (s : State) (e : Entry) : Bool := e.route = .loc || (s.localLoop && e.route = .line)

/-- R94: the head entry of the type-ahead is one that LOCAL takes. -/
def State.localHead (s : State) : Bool := s.kbd.queue.head?.any s.localTakes

/-- R92, R94: LOCAL may be granted. -/
def State.localGrantDue (s : State) : Bool :=
  s.complete && s.printer.right = .free && s.store.printList.isEmpty && !s.awaited && s.localHead

/-- R94: LOCAL may take the head entry. -/
def State.localTakeDue (s : State) : Bool :=
  s.complete && s.printer.right = .loc && 2 ≤ s.printer.places && s.localHead

/-- R79: the PENDING MESSAGE request whose text an END-MARKER closed is withdrawn. -/
def Kbd.withdraw (k : Kbd) : Kbd :=
  { k with request := k.request.filter fun r => r.taken || r.access.isSome }

/-- R74, R94: the case in effect of an entry that LOCAL takes. -/
def Entry.printCase (e : Entry) : Case := e.localCase.getD (e.kcase.getD .low)

/-- R79, R94: LOCAL takes the head entry. -/
def State.takeLocalEntry (s : State) : State :=
  match s.kbd.queue with
  | [] => s
  | e :: _ =>
    let t := s.setKbd s.kbd.pop
    match e.code with
    | some c => t.setPrinter (t.printer.takeLocal c e.printCase)
    | none => (t.setKbd t.kbd.withdraw).setPrinter { t.printer with localIdle := 0 }

/-- R94: the LOCAL idle count is spent. -/
def State.localIdleDue (s : State) : Bool := s.printer.right = .loc && Config.localIdleTicks ≤ s.printer.localIdle

/-- R94: one tick of the LOCAL idle count. -/
def State.tickLocal (s : State) : State :=
  if s.printer.right = .loc && !s.localHead then
    s.setPrinter { s.printer with localIdle := min Config.localIdleTicks (s.printer.localIdle + 1) }
  else s

/-! ### The DRAIN producer (R95 to R98) -/

/-- R95, R110, R187: DRAIN may be granted; not before start-up is complete (log 15). -/
def State.drainGrantDue (s : State) : Bool :=
  s.complete && s.printer.right = .free && !s.store.printList.isEmpty && s.printer.ready && 2 ≤ s.printer.places

/-- R95, R96: the print case that the first `n` cells of an entry leave. DESIGN CHOICE (log 33): these are no reads
under R128, so a parity error among them marks nothing. -/
def State.resumeCase (s : State) (e : DirEntry) (n : Nat) : Case :=
  (List.range n).foldl
    (fun k off =>
      let r := s.store.peek e off
      if r.err then k else trackCase s.loader.straps.usos k r.code) .low

/-- R95, R140: DRAIN is granted for the head of the print list. -/
def State.grantDrain (s : State) : State :=
  match s.store.printList with
  | [] => s
  | i :: _ =>
    match s.store.entry i with
    | none => s
    | some e =>
      (s.setPrinter (s.printer.grantDrain i e.continued e.printPos (s.resumeCase e e.printPos))).setStore
        (s.store.modify i fun e => if e.print = .waiting then { e with print := .printing } else e)

/-- R96, R110, R187: DRAIN may read a cell, or join the MESSAGE-END of a closed entry (log 15). -/
def State.drainReadDue (s : State) : Bool :=
  match s.printer.right with
  | .drain i =>
    s.complete && !s.printer.endJoined &&
      (s.store.entry i).any fun e =>
        if s.printer.readPos < e.len then 2 ≤ s.printer.places
        else e.state = .closed && 1 ≤ s.printer.places
  | _ => false

/-- R96: the next cell joins the queue. -/
def State.drainCell (s : State) (i : Nat) : State :=
  let off := s.printer.readPos
  let r := s.store.readCell i off
  let k := if r.2.err then s.printer.pcase else trackCase s.loader.straps.usos s.printer.pcase r.2.code
  (s.setStore r.1).setPrinter
    { s.printer.join (.code r.2.code r.2.err k (.drain off)) with pcase := k, readPos := off + 1 }

/-- R97: the print position is written, and the entry is PRINTED when its MESSAGE-END is complete. -/
def State.judgePrint (s : State) : State :=
  match s.printer.drain with
  | none => s
  | some i =>
    let pos := s.printer.completePos
    let t := s.setStore (s.store.modify i fun e => { e with printPos := pos })
    if (t.store.entry i).any fun e => t.printer.endComplete e.len pos then
      (t.setStore (t.store.printed t.loader.straps.keepPrinted i)).setPrinter t.printer.clearDrain
    else t

/-- R96, R97: DRAIN reads; a MESSAGE-END that joins may be complete at once. -/
def State.drainRead (s : State) : State :=
  match s.printer.right with
  | .drain i =>
    match s.store.entry i with
    | none => s
    | some e =>
      if s.printer.readPos < e.len then s.drainCell i
      else (s.setPrinter { s.printer.join (.finish (.drain i)) with endJoined := true }).judgePrint
  | _ => s

/-- R107: the print position of the entry that the drain record names. -/
def State.drainPos (s : State) : Nat :=
  match s.printer.drain with
  | some i => (s.store.entry i).elim 0 DirEntry.printPos
  | none => 0

/-! ### Forming and completion (R101, R103) -/

/-- R101, R103, R187: a command may be formed; forming waits for the start-up homing (log 15). -/
def State.formDue (s : State) : Bool := s.complete && s.printer.canForm && s.printer.toForm

/-! ### Readiness and the motor (R105 to R109, R156) -/

/-- R105, R156: PRINTER-NOT-READY: a DRAIN holding ends and a DIRECT message switches to spooling. -/
def State.notReady (s : State) : State :=
  let direct := s.answer.disp.any fun d => d.state = .direct
  let t := (s.setPrinter s.printer.endDrainHolding).switchDirect
  t.raiseHigh (direct && t.answer.disp.any fun d => d.state = .spool)

/-- R105: PAPER OUT becomes asserted. DESIGN CHOICE (log 22): event 6 is taken after readiness has changed. -/
def State.paperOut (s : State) : State :=
  ((s.setPrinter { s.printer with paper := s.printer.paper.change }).raise 6 none).notReady

/-- R105, R106: PAPER OUT clears: held commands are issued and the motor may start. DESIGN CHOICE (log 22): event 7 is
taken after both. -/
def State.paperBack (s : State) : State :=
  (s.setPrinter { s.printer with paper := s.printer.paper.change }.issue.kick).raise 7 none

/-- R107: FAULT becomes asserted. -/
def State.faultAsserted (s : State) : State :=
  (s.setPrinter { (s.printer.abandon s.drainPos) with fault := s.printer.fault.change, homing := [] }).notReady

/-- R107: FAULT clears and the recovery homing is formed, PAPER OUT or not (R106). DEDUCED (log 29): it stands for one
that awaits AT-SPEED too. -/
def Printer.faultCleared (p : Printer) : Printer :=
  { p with fault := p.fault.change, homeAtSpeed := false }.home.kick

/-- R108: AT-SPEED has been read in STARTING. -/
def Printer.atSpeedDue (p : Printer) : Bool := p.motor = .starting && p.atSpeed

/-- R108: RUNNING; the waiting command is issued, and a homing that awaited AT-SPEED is formed, but for one that FAULT's
clearing forms (log 29). A stop found met at the tick stands (log 25). -/
def Printer.toSpeed (p : Printer) : Printer :=
  let q := { p with motor := .running, runOn := 0, runOut := false, homeAtSpeed := false }
  (if p.homeAtSpeed && !p.fault.on then q.home else q).issue

/-- R108: AT-SPEED is no longer read while RUNNING. -/
def Printer.lostDue (p : Printer) : Bool := p.motor = .running && !p.atSpeed

/-- R108: the loss of AT-SPEED. -/
def State.speedLost (s : State) : State :=
  (s.setPrinter
    { (s.printer.abandon s.drainPos) with
      motor := .fault, homing := [], homeAtSpeed := true, runOn := 0, stopMet := false }).notReady

/-- R108: the start count is spent. -/
def Printer.startTimeoutDue (p : Printer) : Bool :=
  p.motor = .starting && !p.atSpeed && Config.motorStartTicks ≤ p.startCount

/-- R108: the motor failed to start; stages and queue are held as they are. -/
def State.startTimeout (s : State) : State :=
  (s.setPrinter { s.printer with motor := .fault, stopMet := false }).notReady

/-- R109: the run-on length has been reached at a tick. -/
def Printer.runOutDue (p : Printer) : Bool := p.motor = .running && p.runOut

/-- R109: the stop request stands and has been met at a tick. DEDUCED (log 25): it stops the motor
although AT_SPEED, taken after that tick, has formed and issued a homing. -/
def Printer.stopMetDue (p : Printer) : Bool :=
  (p.motor = .running || p.motor = .starting) && p.stopReq && p.stopMet

/-! ### Tape (R123, R124) -/

/-- A debounced input becomes asserted. -/
def Debounce.rises (d : Debounce) : Bool := d.due && !d.on

/-- A debounced input clears. -/
def Debounce.falls (d : Debounce) : Bool := d.due && d.on

/-- R123, R124, R125: TAPE-OUT. -/
def State.tapeOut (s : State) : State :=
  let r := ({ s.punch with out := s.punch.out.change }).tapeOut
  ((s.setPunch r.1).setTracker (s.tracker.setIncomplete r.2)).raise 9 none

/-! ### The tick (R1) -/

/-- R184, R2: the Loader's timers. -/
def State.tickLoader (s : State) : State :=
  s.setLoader
    { s.loader with
      wait := s.loader.wait - 1
      flash := if s.rateInvalid && s.complete then min Config.flashTicks (s.loader.flash + 1) else s.loader.flash }

/-- R31, R75, R179, R144, R105, R123: the other blocks' timers and sensing inputs. -/
def State.tickTimers (s : State) (i : TickInputs) : State :=
  let s := s.setQuality { s.quality with errLamp := timerTick s.quality.errLamp }
  let s := s.setKbd { s.kbd with lockTimer := timerTick s.kbd.lockTimer }
  let s := s.setLinks { s.links with alarm := timerTick s.links.alarm }
  let s := s.setStore s.store.tick
  let s := s.setPrinter (s.printer.tick s.kbd.attended.pos i.paperOut i.fault i.atSpeed)
  s.setPunch (s.punch.tick i.tapeLow i.tapeOut)

/-- R168, R169: the six conditions at a tick. -/
def State.tickWatch (s : State) : State :=
  if s.watchConditions then
    if s.answer.watch then s
    else s.setAnswer { s.answer with watchCount := min Config.watchTicks (s.answer.watchCount + 1) }
  else s.wake

/-- R168: the watch count is spent. -/
def State.watchDue (s : State) : Bool := !s.answer.watch && Config.watchTicks ≤ s.answer.watchCount

/-- R88, R168: WATCH is entered. DESIGN CHOICE (log 26): seven ticks pass before the next row is driven. -/
def State.enterWatch (s : State) : State :=
  (s.setAnswer { s.answer with watch := true }).setKbd { s.kbd with scanWait := 7 }

/-- R70, R88: the scan at a tick that began with `wait` ticks to pass: a row is read, or in WATCH a tick passes. -/
def State.tickScan (s : State) (i : TickInputs) (wait : Nat) : State :=
  if 0 < wait then s.setKbd { s.kbd with scanWait := s.kbd.scanWait - 1 }
  else
    let t := s.setKbd (s.kbd.scanRow i s.answer.watch)
    if s.kbd.active i then t.wake else t

/-- R1, R70: one housekeeping tick. A WATCH that a condition ends here leaves this tick's scan as it was (R169). DESIGN
CHOICE (log 26): the watch count moves on before the scan reports activity, so that a tick with activity leaves it 0. -/
def State.tick (s : State) (i : TickInputs) : State :=
  if s.loader.phase = .inReset then s
  else (((s.tickLoader.tickTimers i).tickLocal).tickWatch).tickScan i s.kbd.scanWait

end Sys2Proof.Machine
end

