-- ==== Sys2Proof/Machine/ResetOps.lean ====
section
/-! DEFINITION. Resets, start-up and the configuration image (chapter 10, sections 1 to 3). -/

namespace Sys2Proof.Machine

/-- R188: power-on; the outside pins and the waiting commands stay as they are (log 6). -/
def State.powerOn (s : State) : State :=
  { State.reset with
    liu := { Liu.reset with faultIn := s.liu.faultIn }
    port := { Port.reset with selectLow := s.port.selectLow }
    pending := s.pending }

/-- R69: the record of a call held at a pin or service reset is completed INCOMPLETE; R125, R126: interrupted calls'
punch results. DESIGN CHOICE (log 44): the disposition field keeps what is entered in it, without the value of a DELIVER
that the reset cuts (R153, R170). -/
def State.resetTracker (s : State) : Tracker :=
  let t := s.tracker.setIncomplete s.punch.resetCalls
  let t := match t.call with
    | some c => t.close c .incomplete
    | none => t
  { t with errs := 0, maxD := 0, belongs := .outside }

/-- R182, R187, R188: the Loader in a reset with a cause. -/
def Loader.inReset (l : Loader) (cause : ResetCause) : Loader :=
  { Loader.powerOn with straps := l.straps, svc := l.svc, cause := cause }

/-- R17, R18, R32, R69, R89, R110, R126, R149, R170, R179, R191: a pin or service reset begins. -/
def State.beginReset (s : State) (cause : ResetCause) : State where
  loader := s.loader.inReset cause
  liu := { Liu.reset with faultIn := s.liu.faultIn }
  framer := .reset
  gauge := .reset
  quality := .reset
  sender := .reset
  listener := .reset
  tracker := s.resetTracker
  kbd := .reset
  printer := .reset
  punch := .reset
  store := s.store.afterReset
  answer := .reset
  links := .reset
  port := { Port.reset with selectLow := s.port.selectLow }
  pending := s.pending

/-- R188: RESET asserted while power comes up leaves the cause POWER (log 8). -/
def State.resetPin (s : State) : State :=
  if s.loader.phase = .inReset && s.loader.cause = .power then s else s.beginReset .pin

/-- R182, R183, R187 step 2: release. -/
def State.release (s : State) (st : Straps) : State :=
  ((s.setLoader
      { s.loader with
        straps := st, svc := if s.loader.cause = .power then st.svc else s.loader.svc
        phase := .reading, attempts := 0 }).setLiu
    { s.liu with divisor := rateDivisor st.rate, stopLen := stopSamples st.stop }).setPrinter
    { s.printer with width := widthOf st.width }

/-- R45, R186: the seed. -/
def seedOf (l : Loader) : BitVec 15 :=
  match l.individual with
  | some c => BitVec.ofNat 15 (c.c1.toNat * 32 + c.c2.toNat)
  | none => 0

/-- R163: the facility's state for an access code. -/
def facilityOf (access : Option (List Code)) : Facility :=
  match access with
  | some cs => if cs.all (· = 0) then .disabled else .opened
  | none => .disabled

/-- R161, R163, R171, R181, R184, R186: the tables of a final read result. -/
def State.loadImage (s : State) (img : Option (Vector Byte 65)) : State :=
  let cfg := judgeImage img
  let v := if cfg = .valid then img else none
  let access := v.map imageAccess
  let deflt := v.all linkAreaZero
  let s := s.setLoader
    { s.loader with
      config := some cfg
      individual := v.map fun v => imageStation v 1
      groups := v.elim [] imageGroups }
  let s := s.setAnswer
    { s.answer with
      answerBack := v.elim (List.replicate 20 0) imageAnswerBack
      access := access, facility := facilityOf access, wrong := 0 }
  s.setLinks
    { s.links with table := some (if deflt then defaultLinks else v.elim defaultLinks imageLinks), isDefault := deflt }

/-- R2, R45, R110, R187: steps 3 to 5. DESIGN CHOICE (log 52): start-up is complete here also where a recovery homing
still fills the stages, and the start-up homing then waits to be formed. -/
def State.finishStartUp (s : State) (img : Option (Vector Byte 65)) : State :=
  let s := s.loadImage img
  let s := s.setSender { s.sender with gen := seedOf s.loader }
  let s := s.setPrinter s.printer.startHoming
  s.setLoader { s.loader with phase := .complete, flashLit := s.rateInvalid, flash := 0 }

/-- R184: a read attempt ends. -/
def State.configRead (s : State) (img : Option (Vector Byte 65)) : State :=
  match img with
  | some v => s.finishStartUp (some v)
  | none =>
    if s.loader.attempts + 1 < Config.readAttempts then
      s.setLoader
        { s.loader with attempts := s.loader.attempts + 1, phase := .waiting, wait := Config.retryReadTicks }
    else s.finishStartUp none

/-- R184: the wait has ended. -/
def State.retryReadDue (s : State) : Bool := s.loader.phase = .waiting && s.loader.wait = 0

/-- R2: the flash period has ended. -/
def State.flashDue (s : State) : Bool := s.complete && s.rateInvalid && Config.flashTicks ≤ s.loader.flash

end Sys2Proof.Machine
end

