-- ==== Sys2Proof/Machine/PortOps.lean ====
section
/-! DEFINITION. The service port's transactions (chapter 10, section 4). -/

namespace Sys2Proof.Machine

/-! ### Encodings of a response (R193) -/

/-- A number as one byte. -/
def byte (n : Nat) : Byte := BitVec.ofNat 8 n

/-- A number as two bytes, high byte first. -/
def byte2 (n : Nat) : List Byte := [BitVec.ofNat 8 (n / 256), BitVec.ofNat 8 n]

/-- A code as a byte. -/
def codeByte (c : Code) : Byte := c.setWidth 8

/-- A station code as two bytes. -/
def stationBytes (c : StationCode) : List Byte := [codeByte c.c1, codeByte c.c2]

def roleByte : Role → Byte
  | .caller => 1
  | .called => 2
  | .member => 3
  | .watcher => 4

def kindByte : CallKind → Byte
  | .message => 1
  | .poll => 4

def outcomeByte : Option CallOutcome → Byte
  | none => 0
  | some .complete => 1
  | some .incomplete => 2
  | some .broken => 3
  | some .refused => 4
  | some .aborted => 5
  | some .notServed => 6

def dispByte : Option Disp → Byte
  | none => 0
  | some .direct => 1
  | some .spool => 2
  | some .split => 3
  | some .lost => 4
  | some .partLost => 5
  | some .refused => 6

def punchByte : PunchResult → Byte
  | .none => 0
  | .punched => 1
  | .incomplete => 2
  | .missed => 3

/-- R68: the answered-by field, with 0 in the places not received. -/
def answeredBytes (a : Option (List Code)) : List Byte :=
  (List.range 20).map fun k => codeByte ((a.getD []).getD k 0)

/-- R193: the 38 bytes of a call record. -/
def LogRecord.bytes (r : LogRecord) : List Byte :=
  byte2 r.serial ++ [roleByte r.role] ++ stationBytes r.origin ++ stationBytes r.dest ++
    [kindByte r.kind, outcomeByte r.outcome, dispByte r.disp] ++ byte2 r.chars ++ [byte r.errs, byte r.maxD] ++
    [flagByte r.doubtful r.timedOut r.noAnswerBack r.answeredBy.isSome r.dirIndex.isSome r.deliveries.isSome false
      false, punchByte r.punch, byte (r.dirIndex.getD 0), byte (r.deliveries.getD 0)] ++ answeredBytes r.answeredBy

def entryKindByte : EntryKind → Byte
  | .received => 1
  | .prepared => 2
  | .held => 3

def entryStateByte : EntryState → Byte
  | .opened => 1
  | .closed => 2
  | .ready => 3
  | .sending => 4
  | .failed => 5
  | .sent => 6
  | .readyHeld => 7
  | .delivering => 8
  | .delivered => 9

def printByte : PrintState → Byte
  | .waiting => 1
  | .printing => 2
  | .printed => 3

/-- R193: the 22 bytes of a present directory entry at a position of the creation order. -/
def DirEntry.bytes (e : DirEntry) (pos : Nat) : List Byte :=
  let rec_ := e.kind = .received
  [entryKindByte e.kind, entryStateByte e.state, byte pos] ++ byte2 (if rec_ then e.serial else 0) ++
    stationBytes e.origin ++ stationBytes e.dest ++ [outcomeByte e.outcome] ++ byte2 e.len ++
    [byte e.chain.length, if rec_ then printByte e.print else 0] ++ byte2 (if rec_ then e.printPos else 0) ++
    [flagByte e.doubtful e.damaged e.continued e.kept false false false false, byte e.attempts] ++
    byte2 (e.retry.getD 0) ++ byte2 (e.sending.getD 0)

/-- R193: the response to DIRECTORY after the status byte. -/
def Store.dirBytes (st : Store) (i : Nat) : List Byte :=
  match st.entry i with
  | some e => e.bytes (st.order.idxOf i)
  | none => List.replicate 22 0

/-- R193: the records of the log as LOG numbers them, the newest first; a held call's comes first. -/
def Tracker.records (t : Tracker) : List LogRecord :=
  ((t.call.toList.map Call.log) ++ t.log).take Config.logRecords

/-- R193: a cell as TEXT returns it. -/
def CellRead.byte (r : CellRead) : Byte :=
  codeByte r.code ||| (if r.err then 0x20 else 0) ||| (if r.bad then 0x40 else 0)

/-- R128, R193: `n` cells from an offset are read. -/
def Store.readText (st : Store) (i off : Nat) : Nat → Store × List Byte
  | 0 => (st, [])
  | n + 1 =>
    let r := st.readCell i off
    let q := r.1.readText i (off + 1) n
    (q.1, r.2.byte :: q.2)

def lqBits : LQ → Byte
  | .good => 0x00
  | .fair => 0x10
  | .poor => 0x20

/-- R193: the quality byte. -/
def Quality.byte (q : Quality) : Byte :=
  flagByte q.fine.flag q.coarse.flag q.fine.sticky q.coarse.sticky false false false false ||| lqBits q.lq

def configByte : Option ConfigState → Byte
  | some .noAnswer => 1
  | some .markerWrong => 2
  | some .codeInvalid => 3
  | some .valid => 0
  | none => 0

def causeByte : ResetCause → Byte
  | .power => 1
  | .pin => 2
  | .service => 3

/-- R193: byte 7 of IDENT. -/
def Straps.byteA (st : Straps) : Byte := st.rate.setWidth 8 ||| (st.stop.setWidth 8 <<< 3) ||| (st.margin.setWidth 8 <<< 5)

/-- R193: byte 8 of IDENT. -/
def Straps.byteB (st : Straps) : Byte :=
  st.width.setWidth 8 ||| flagByte false false st.anl st.usos st.monitor st.keepPrinted st.verify false

/-- R193: the eight bytes of IDENT. -/
def State.identBytes (s : State) : List Byte :=
  [0x01, 0x9C, 1, configByte s.loader.config,
    flagByte s.rateInvalid s.links.isDefault (s.answer.facility = .disabled) (s.answer.facility = .locked) s.store.fault
      false false false,
    causeByte s.loader.cause, Straps.byteA s.loader.straps, Straps.byteB s.loader.straps]

/-! ### Transactions (R189 to R194) -/

/-- R189: select low may begin a transaction: the port exists, no reset is asserted, and select was seen high. DESIGN CHOICE
(log 62): while a reset that leaves the SVC latch set is still asserted, select low begins no transaction, and so gets no
NAK (R192). -/
def State.selectAllowed (s : State) : Bool := s.loader.svc && s.loader.phase != .inReset && !s.port.selectLow

/-- R169, R189, R190, R192: a transaction begins. -/
def State.beginTxn (s : State) : State :=
  (s.setPort
    { s.port with selectLow := true, txn := some ⟨s.statusByte, false, !s.complete, false, [], .none⟩ }).wake

/-- R189: select goes low. -/
def State.selectFalls (s : State) : State :=
  if s.selectAllowed then s.beginTxn else s.setPort { s.port with selectLow := true }

/-- R38, R190, R191, R194: what a transaction does at its end; an error event not yet shown keeps the ERROR flag set. -/
def State.txnEnd (s : State) (errSince : Bool) : TxnEffect → State
  | .none => s
  | .clearError => s.setPort { s.port with errFlag := s.port.errFlag && errSince }
  | .clearSticky f c =>
    s.setQuality
      { s.quality with
        fine := if f then { s.quality.fine with sticky := false } else s.quality.fine
        coarse := if c then { s.quality.coarse with sticky := false } else s.quality.coarse }
  | .setMask m => s.setPort { s.port with mask := m }
  | .reset => s.beginReset .service

/-- R189: select goes high. -/
def State.selectRises (s : State) : State :=
  let t := s.setPort { s.port with selectLow := false, txn := none }
  match s.port.txn with
  | some x => t.txnEnd x.errSince x.effect
  | none => t

/-- R189: a command is taken and its response formed. -/
def Txn.respond (x : Txn) (body : List Byte) (e : TxnEffect) : Txn :=
  { x with taken := true, response := x.status :: body, effect := e }

/-- R189, R192: byte `n` of the response, from 0, as it is clocked out: 0x00 beyond the bytes formed, also those after the
status byte of a refusal. -/
def Txn.byteAt (x : Txn) (n : Nat) : Byte := x.response.getD n 0

/-- R192: the transaction is refused; zeros follow the status byte (`Txn.byteAt`). -/
def Txn.nak (x : Txn) : Txn := { x with taken := true, response := [x.status ||| 0x80], effect := .none }

/-- R183, R189, R194: what data out shows as byte `n` of a response; none while it is inactive, without the SVC latch or
with no response formed. -/
def State.dataOut (s : State) (n : Nat) : Option Byte :=
  if s.loader.svc then (s.port.txn.filter Txn.taken).map fun x => x.byteAt n else none

/-- The transaction in progress, when it still awaits its command (R189). -/
def State.openTxn (s : State) : Option Txn := s.port.txn.filter fun x => !x.taken

/-- The transaction becomes `x`. -/
def State.putTxn (s : State) (x : Txn) : State := s.setPort { s.port with txn := some x }

/-- R192: a command with its last parameter complete: refused before start-up is complete or when `ok` fails, else
taken. DESIGN CHOICE (log 38): a transaction begun between a service reset and the end of start-up is answered with NAK too,
though R194 keeps data out inactive until the first transaction after start-up. -/
def State.command (s : State) (ok : Bool) (f : Txn → State) : State :=
  match s.openTxn with
  | none => s
  | some x => if x.early || !ok then s.putTxn x.nak else f x

/-- R190: STATUS. -/
def State.portStatus (s : State) : State :=
  s.command true fun x => s.putTxn (x.respond [] (if x.status.getLsbD 0 then .clearError else .none))

/-- R191: the mask after an ALERT-MASK parameter. -/
def maskAfter (m : BitVec 7) (param : Byte) : BitVec 7 :=
  if param.getLsbD 7 then m ||| param.setWidth 7 else m &&& ~~~(param.setWidth 7)

/-- R191, R194: ALERT-MASK. -/
def State.portMask (s : State) (param : Byte) : State :=
  let m := maskAfter s.port.mask param
  s.command true fun x => s.putTxn (x.respond [m.setWidth 8] (.setMask m))

/-- R38, R193: QUALITY. -/
def State.portQuality (s : State) : State :=
  s.command true fun x =>
    s.putTxn (x.respond [byte s.quality.fine.counter, byte s.quality.coarse.counter, s.quality.byte]
      (.clearSticky s.quality.fine.sticky s.quality.coarse.sticky))

/-- R193: n is a record held. -/
def State.logOk (s : State) (n : Byte) : Bool := logInRange n && n.toNat < s.tracker.records.length

/-- R193: LOG. -/
def State.portLog (s : State) (n : Byte) : State :=
  s.command (s.logOk n) fun x =>
    s.putTxn (x.respond ((s.tracker.records[n.toNat]?).elim [] LogRecord.bytes) .none)

/-- R193: DIRECTORY. -/
def State.portDirectory (s : State) (idx : Byte) : State :=
  s.command (indexInRange idx) fun x => s.putTxn (x.respond (s.store.dirBytes idx.toNat) .none)

/-- R193: the parameters of TEXT are in range. -/
def State.textOk (s : State) (idx : Byte) (off : BitVec 16) (count : Byte) : Bool :=
  indexInRange idx && countInRange count && (s.store.entry idx.toNat).any fun e => off.toNat < e.len

/-- R193: the number of cells that TEXT returns. -/
def State.textCells (s : State) (idx : Byte) (off : BitVec 16) (count : Byte) : Nat :=
  (s.store.entry idx.toNat).elim 0 fun e => min count.toNat (e.len - off.toNat)

/-- R128, R193: TEXT. -/
def State.portText (s : State) (idx : Byte) (off : BitVec 16) (count : Byte) : State :=
  let n := s.textCells idx off count
  s.command (s.textOk idx off count) fun x =>
    let r := s.store.readText idx.toNat off.toNat n
    (s.setStore r.1).putTxn (x.respond (byte n :: r.2) .none)

/-- R193: IDENT. -/
def State.portIdent (s : State) : State := s.command true fun x => s.putTxn (x.respond s.identBytes .none)

/-- R98: the entry that the drain record names is about to leave the print list. -/
def State.loseDrainOf (s : State) (i : Nat) : State :=
  if s.printer.drain = some i then s.setPrinter (s.printer.loseDrain i) else s

/-- R148: DELETE at the store, with the result of R194. -/
def State.deleteEntry (s : State) (i : Nat) : State × Byte :=
  match s.store.entry i with
  | none => (s, 2)
  | some e => if e.busy then (s, 1) else ((s.setStore (s.store.remove i)).loseDrainOf i, 0)

/-- R148: KEEP at the store. -/
def State.keepEntry (s : State) (i : Nat) : State × Byte :=
  match s.store.entry i with
  | none => (s, 2)
  | some _ => (s.setStore (s.store.modify i fun e => { e with kept := true }), 0)

/-- R146, R148: RELEASE at the store. -/
def State.releaseEntry (s : State) (i : Nat) : State × Byte :=
  match s.store.entry i with
  | none => (s, 2)
  | some _ => (s.setStore (s.store.release s.loader.straps.keepPrinted i), 0)

/-- R194: ENTRY, with the store's answer. -/
def State.portEntry (s : State) (idx : Byte) (r : State × Byte) : State :=
  s.command (indexInRange idx) fun x => r.1.putTxn (x.respond [r.2] .none)

/-- R194: RESET; it begins when the transaction ends. -/
def State.portReset (s : State) : State := s.command true fun x => s.putTxn (x.respond [] .reset)

/-- R193, R194: the parameters of a service command are in range, those of LOG and TEXT as the state has it. -/
def State.inRange (s : State) : Instr → Bool
  | .svcLog n => s.logOk n
  | .svcText i off c => s.textOk i off c
  | c => c.wellFormed

/-- R192: the command byte and parameters would be taken once start-up is complete. -/
def State.paramsOk (s : State) (cmd : Byte) (ps : List Byte) : Bool := (transactionCommand cmd ps).any s.inRange

/-- R189, R192: a transaction with this command byte and these parameter bytes is refused; one that ends before its
last parameter byte does nothing. -/
def State.portNak (s : State) (cmd : Byte) (ps : List Byte) : State :=
  match s.openTxn with
  | none => s
  | some x =>
    if ps.length = paramCount cmd && (x.early || !s.paramsOk cmd ps) then s.putTxn x.nak else s

end Sys2Proof.Machine
end

