-- ==== Sys2Proof/Machine/Due.lean ====
section
/-! DEFINITION. When each of the block's own steps is due, and which one an idle block takes (log 1, log 2). -/

namespace Sys2Proof.Machine

/-! ### Conditions not given elsewhere -/

/-- R13. -/
def State.burstEndDue (s : State) : Bool := s.liu.drive = .burst && Config.burstSamples ≤ s.liu.burstN

/-- R15. -/
def State.loopEndDue (s : State) : Bool :=
  s.liu.faultLatch && s.liu.rest && Config.localLoopElements ≤ s.restCount

/-- R58: the fourth window element has been counted. -/
def State.refusalDue (s : State) : Bool :=
  s.listener.inWindow && Config.refusalElement ≤ s.listener.window && !s.listener.refusalGiven

/-- R58: the 24th window element has been counted. -/
def State.windowDue (s : State) : Bool :=
  s.listener.inWindow && Config.windowElements ≤ s.listener.window && s.listener.refusalGiven

/-- R42. -/
def State.slotDue (s : State) : Bool := s.slotOpen && s.sourceReady

/-- R144: a READY entry's retry timer has reached 0. -/
def State.retryDue (s : State) (i : Nat) : Bool :=
  (s.store.entry i).any fun e => e.kind = .prepared && e.state = .ready && e.retry = some 0

/-- R1, R36: the element tick that the idle block takes is the one at the 64th sample. -/
def State.tickIdle (s : State) : Bool := s.liu.divisor.isSome && Config.elementSamples ≤ s.liu.tickPhase

/-! ### All of them -/

/-- The command is a step of the block's own that is due; false for a command that comes from outside. -/
def State.due (s : State) : Instr → Bool
  | .powerOn => false
  | .resetPinAsserted => false
  | .resetRelease _ => false
  | .configReadDone _ => false
  | .configRetryTimeout => s.retryReadDue
  | .configFlashToggle => s.flashDue
  | .sample _ _ => false
  | .restRecognised => s.restDue
  | .breakSeen => s.breakDue
  | .burstEnd => s.burstEndDue
  | .lineFaultAsserted => false
  | .lineFaultCleared => false
  | .localLoopEnded => s.loopEndDue
  | .elementTick => s.tickIdle
  | .integratorDecrement w => (s.quality.get w).decrementDue w
  | .integratorFlagChange => s.quality.flagsDue
  | .errorLampTimeout => s.quality.errLamp = some 0
  | .refusalPoint => s.refusalDue
  | .windowEnd => s.windowDue
  | .holdLimitExpired => s.holdLimitDue
  | .slotExamine => s.slotDue
  | .guardReached => s.guardDue
  | .elementEnd => s.liu.elemEnded
  | .holdTimeout => s.holdTimeoutDue
  | .noAnswerBack => s.noAnswerBackDue
  | .obligationLapse => s.slotLapseDue || s.pendingLapseDue
  | .watchLineEnd => s.watchEndDue && !s.restDue
  | .scanRow _ => false
  | .keyDown p => s.kbd.keyDownDue p
  | .keyUp k => s.kbd.keyUpDue k
  | .callKey => (s.kbd.fnKey .call).downDue
  | .collectKey => (s.kbd.fnKey .collect).downDue
  | .endKey => (s.kbd.fnKey .endKey).downDue
  | .breakKey => (s.kbd.fnKey .breakKey).downDue
  | .hereIs => (s.kbd.fnKey .hereIs).downDue
  | .cancelKey => (s.kbd.fnKey .cancel).downDue
  | .modeChange => s.kbd.mode.due
  | .punchSwitchChange => s.kbd.punchSw.due
  | .attendedChange => s.kbd.attended.due
  | .lockTimerExpired => s.kbd.lockTimer = some 0
  | .prepareEntryTaken => s.prepareDue
  | .watchEntered => s.watchDue
  | .localGrant => s.localGrantDue
  | .localEntryTaken => s.localTakeDue
  | .localIdleTimeout => s.localIdleDue
  | .drainGrant => s.drainGrantDue
  | .drainRead => s.drainReadDue
  | .formCommand => s.formDue
  | .printDone => false
  | .paperOut => s.printer.paper.rises
  | .paperBack => s.printer.paper.falls
  | .faultAsserted => s.printer.fault.rises
  | .faultCleared => s.printer.fault.falls
  | .atSpeed => s.printer.atSpeedDue
  | .atSpeedLost => s.printer.lostDue
  | .motorStartTimeout => s.printer.startTimeoutDue
  | .runOnExpired => s.printer.runOutDue
  | .stopRequestMet => s.printer.stopMetDue
  | .keyboardIdleTimeout => s.punch.keyboardIdle
  | .punchDone => false
  | .tapeLow => s.punch.low.rises
  | .tapeLowCleared => s.punch.low.falls
  | .tapeOut => s.punch.out.rises
  | .tapeOutCleared => s.punch.out.falls
  | .retryTimerExpired i => s.retryDue i.toNat
  | .alarmPulseEnd => s.links.alarm = some 0
  | .selectLow => false
  | .selectHigh => false
  | .svcStatus => false
  | .svcAlertMask _ => false
  | .svcQuality => false
  | .svcLog _ => false
  | .svcDirectory _ => false
  | .svcText _ _ _ => false
  | .svcIdent => false
  | .svcDelete _ => false
  | .svcKeep _ => false
  | .svcRelease _ => false
  | .svcReset => false
  | .svcNak _ _ => false

/-- The 64 matrix positions. -/
def matrixPositions : List (BitVec 6) := (List.range 64).map (BitVec.ofNat 6)

/-- The six function keys. -/
def fnKeys : List FnKey := [.call, .collect, .endKey, .breakKey, .hereIs, .cancel]

/-- The block's own steps, in the order in which an idle block looks for one (log 2). -/
def ownSteps : List Instr :=
  [.elementTick, .integratorDecrement .fine, .integratorDecrement .coarse, .integratorFlagChange, .breakSeen,
    .burstEnd, .restRecognised, .watchLineEnd, .holdLimitExpired, .localLoopEnded, .refusalPoint, .windowEnd,
    .elementEnd, .holdTimeout, .obligationLapse, .noAnswerBack, .guardReached, .slotExamine, .configRetryTimeout,
    .configFlashToggle, .errorLampTimeout] ++
  matrixPositions.map Instr.keyDown ++ matrixPositions.map (fun p => Instr.keyUp (.matrix p)) ++
  [.callKey, .collectKey, .endKey, .breakKey, .hereIs, .cancelKey] ++ fnKeys.map (fun f => Instr.keyUp (.fn f)) ++
  [.modeChange, .punchSwitchChange, .attendedChange, .lockTimerExpired, .prepareEntryTaken, .paperOut, .paperBack,
    .faultAsserted, .faultCleared, .atSpeed, .atSpeedLost, .motorStartTimeout, .runOnExpired, .stopRequestMet,
    .localGrant, .localEntryTaken, .localIdleTimeout, .drainGrant, .drainRead, .formCommand, .keyboardIdleTimeout,
    .tapeLow, .tapeLowCleared, .tapeOut, .tapeOutCleared] ++
  (List.range 32).map (fun i => Instr.retryTimerExpired (BitVec.ofNat 5 i)) ++ [.alarmPulseEnd, .watchEntered]

/-- The step that an idle block takes by itself. -/
def State.firstDue (s : State) : Option Instr := ownSteps.find? s.due

end Sys2Proof.Machine
end

