-- ==== Sys2Proof/Machine/CallCmds.lean ====
section
/-! DEFINITION. The meanings of the commands of the Sender, the reply window and the held call. -/

namespace Sys2Proof.Machine

/-- REFUSAL_POINT (R58, R151). -/
def execRefusalPoint (s : State) : Host.Outcome State Fault Refusal := stepWhen s.refusalDue State.giveRefusalPoint s

/-- WINDOW_END (R58, R152). -/
def execWindowEnd (s : State) : Host.Outcome State Fault Refusal := 
  stepWhen s.windowDue (State.thenEvents State.giveWindowEnd) s

/-- HOLD_LIMIT_EXPIRED (R63, R64). -/
def execHoldLimitExpired (s : State) : Host.Outcome State Fault Refusal := 
  stepWhen s.holdLimitDue (State.thenEvents State.endCallR63) s

/-- SLOT_EXAMINE (R42). -/
def execSlotExamine (s : State) : Host.Outcome State Fault Refusal := stepWhen s.slotDue State.takeJob s

/-- GUARD_REACHED (R44, R46). -/
def execGuardReached (s : State) : Host.Outcome State Fault Refusal := 
  stepWhen s.guardDue (State.thenEvents State.askStart) s

/-- ELEMENT_END (R4 to R7, R46 to R51). -/
def execElementEnd (s : State) : Host.Outcome State Fault Refusal := 
  stepWhen s.liu.elemEnded (State.thenEvents State.elementEnd) s

/-- HOLD_TIMEOUT (R49). -/
def execHoldTimeout (s : State) : Host.Outcome State Fault Refusal := stepWhen s.holdTimeoutDue State.holdTimeout s

/-- NO_ANSWER_BACK (R51). -/
def execNoAnswerBack (s : State) : Host.Outcome State Fault Refusal :=
  stepWhen s.noAnswerBackDue (fun s => s.modLog fun r => { r with noAnswerBack := true }) s

/-- OBLIGATION_LAPSE (R44): the obligation in the slot, or else the one that was not taken. -/
def execObligationLapse (s : State) : Host.Outcome State Fault Refusal :=
  stepWhen (s.slotLapseDue || s.pendingLapseDue)
    (State.thenEvents fun s => if s.slotLapseDue then s.finishJob .lapsed else s.lapsePending) s

/-- WATCH_LINE_END (R53). -/
def execWatchLineEnd (s : State) : Host.Outcome State Fault Refusal :=
  stepWhen (s.watchEndDue && !s.restDue) (State.thenEvents State.classifyWatch) s

end Sys2Proof.Machine
end

