-- ==== Sys2Proof/Machine/KeyCmds.lean ====
section
/-! DEFINITION. The meanings of the housekeeping tick and of the keyboard's commands. -/

namespace Sys2Proof.Machine

/-- SCAN_ROW (R1, R70): the housekeeping tick (log 3). -/
def execScanRow (i : TickInputs) (s : State) : Host.Outcome State Fault Refusal := .next (s.tick i)

/-- KEY_DOWN (R71, R72, R77). -/
def execKeyDown (p : BitVec 6) (s : State) : Host.Outcome State Fault Refusal :=
  stepWhen (s.kbd.keyDownDue p) (State.thenEvents fun s => s.keyDown p) s

/-- KEY_UP (R71). -/
def execKeyUp (k : KeyId) (s : State) : Host.Outcome State Fault Refusal :=
  stepWhen (s.kbd.keyUpDue k) (fun s => s.setKbd (s.kbd.keyUp k)) s

/-- CALL (R78, R81). -/
def execCallKey (s : State) : Host.Outcome State Fault Refusal :=
  stepWhen (s.kbd.fnKey .call).downDue (fun s => s.setKbd (s.kbd.setFn .call true).callKey) s

/-- COLLECT (R80). -/
def execCollectKey (s : State) : Host.Outcome State Fault Refusal :=
  stepWhen (s.kbd.fnKey .collect).downDue (fun s => s.setKbd (s.kbd.setFn .collect true).collectKey) s

/-- END (R78, R81). -/
def execEndKey (s : State) : Host.Outcome State Fault Refusal :=
  stepWhen (s.kbd.fnKey .endKey).downDue (fun s => (s.fnDown .endKey).endKey) s

/-- BREAK (R67). -/
def execBreakKey (s : State) : Host.Outcome State Fault Refusal :=
  stepWhen (s.kbd.fnKey .breakKey).downDue (State.thenEvents fun s => (s.fnDown .breakKey).breakKey) s

/-- HERE_IS (R85). -/
def execHereIs (s : State) : Host.Outcome State Fault Refusal :=
  stepWhen (s.kbd.fnKey .hereIs).downDue (fun s => (s.fnDown .hereIs).hereIs) s

/-- CANCEL (R83). -/
def execCancelKey (s : State) : Host.Outcome State Fault Refusal :=
  stepWhen (s.kbd.fnKey .cancel).downDue (fun s => (s.fnDown .cancel).cancelKey) s

/-- MODE_CHANGE (R73, R84). -/
def execModeChange (s : State) : Host.Outcome State Fault Refusal := stepWhen s.kbd.mode.due State.modeChange s

/-- PUNCH_SWITCH_CHANGE (R73, R121). -/
def execPunchSwitchChange (s : State) : Host.Outcome State Fault Refusal :=
  stepWhen s.kbd.punchSw.due State.punchChange s

/-- ATTENDED_CHANGE (R73). -/
def execAttendedChange (s : State) : Host.Outcome State Fault Refusal :=
  stepWhen s.kbd.attended.due (fun s => s.setKbd { s.kbd with attended := s.kbd.attended.change }) s

/-- LOCK_TIMER_EXPIRED (R75). -/
def execLockTimerExpired (s : State) : Host.Outcome State Fault Refusal :=
  stepWhen (s.kbd.lockTimer = some 0) (fun s => s.setKbd { s.kbd with lockTimer := none }) s

/-- PREPARE_ENTRY_TAKEN (R81). -/
def execPrepareEntryTaken (s : State) : Host.Outcome State Fault Refusal := 
  stepWhen s.prepareDue (State.thenEvents State.takePrepare) s

/-- WATCH_ENTERED (R88, R168). -/
def execWatchEntered (s : State) : Host.Outcome State Fault Refusal := stepWhen s.watchDue State.enterWatch s

end Sys2Proof.Machine
end

