-- ==== Sys2Proof/Machine/LineCmds.lean ====
section
/-! DEFINITION. The meanings of the line, framing and quality commands. -/

namespace Sys2Proof.Machine

/-- SAMPLE (R3): only while the element timebase runs (R2). -/
def execSample (rxP rxN : Bool) (s : State) : Host.Outcome State Fault Refusal :=
  stepWhen s.enabled (State.thenEvents fun s => s.sampleLine rxP rxN) s

/-- REST_RECOGNISED (R8). -/
def execRestRecognised (s : State) : Host.Outcome State Fault Refusal := 
  stepWhen s.restDue (State.thenEvents State.restRecognised) s

/-- BREAK_SEEN (R9). -/
def execBreakSeen (s : State) : Host.Outcome State Fault Refusal := 
  stepWhen s.breakDue (State.thenEvents State.breakSeen) s

/-- BURST_END (R13). -/
def execBurstEnd (s : State) : Host.Outcome State Fault Refusal :=
  stepWhen s.burstEndDue (fun s => s.setLiu { s.liu with drive := .off, burstN := 0 }) s

/-- LINE_FAULT_ASSERTED (R14, R27); with no timebase the input is only remembered (R2, log 6). -/
def execLineFaultAsserted (s : State) : Host.Outcome State Fault Refusal :=
  stepWhen (!s.liu.faultIn)
    (State.thenEvents fun s =>
      let t := s.setLiu { s.liu with faultIn := true }
      if s.enabled then t.lineFault else t) s

/-- LINE_FAULT_CLEARED (R15). -/
def execLineFaultCleared (s : State) : Host.Outcome State Fault Refusal :=
  .next (s.setLiu { s.liu with faultIn := false })

/-- LOCAL_LOOP_ENDED (R15): the pending call request is then SLOT_EXAMINE's to take (R16, R42). -/
def execLocalLoopEnded (s : State) : Host.Outcome State Fault Refusal :=
  stepWhen s.loopEndDue (fun s => s.setLiu { s.liu with faultLatch := false }) s

/-- ELEMENT_TICK (R1, R34, R36). -/
def execElementTick (s : State) : Host.Outcome State Fault Refusal := stepWhen s.liu.tickDue State.elementTick s

/-- INTEGRATOR_DECREMENT (R34). -/
def execIntegratorDecrement (w : Integ) (s : State) : Host.Outcome State Fault Refusal :=
  stepWhen ((s.quality.get w).decrementDue w)
    (fun s => s.setQuality (s.quality.put w (s.quality.get w).decrement)) s

/-- INTEGRATOR_FLAG_CHANGE (R35, R37). -/
def execIntegratorFlagChange (s : State) : Host.Outcome State Fault Refusal :=
  stepWhen s.quality.flagsDue (State.thenEvents State.flagChange) s

/-- ERROR_LAMP_TIMEOUT (R31). -/
def execErrorLampTimeout (s : State) : Host.Outcome State Fault Refusal :=
  stepWhen (s.quality.errLamp = some 0) (fun s => s.setQuality { s.quality with errLamp := none }) s

end Sys2Proof.Machine
end

