-- ==== Sys2Proof/Machine/PortCmds.lean ====
section
/-! DEFINITION. The meanings of the service port's commands. One that comes with no transaction open, or after the
command of the transaction has been taken, is data that the port ignores (R189). -/

namespace Sys2Proof.Machine

/-- SELECT_LOW (R189). -/
def execSelectLow (s : State) : Host.Outcome State Fault Refusal := .next s.selectFalls

/-- SELECT_HIGH (R189). -/
def execSelectHigh (s : State) : Host.Outcome State Fault Refusal := .next s.selectRises

/-- STATUS (R190). -/
def execSvcStatus (s : State) : Host.Outcome State Fault Refusal := .next s.portStatus

/-- ALERT_MASK (R191). -/
def execSvcAlertMask (param : Byte) (s : State) : Host.Outcome State Fault Refusal := .next (s.portMask param)

/-- QUALITY (R193). -/
def execSvcQuality (s : State) : Host.Outcome State Fault Refusal := .next s.portQuality

/-- LOG (R193). -/
def execSvcLog (n : Byte) (s : State) : Host.Outcome State Fault Refusal := .next (s.portLog n)

/-- DIRECTORY (R193). -/
def execSvcDirectory (idx : Byte) (s : State) : Host.Outcome State Fault Refusal := .next (s.portDirectory idx)

/-- TEXT (R193). -/
def execSvcText (idx : Byte) (off : BitVec 16) (count : Byte) (s : State) : Host.Outcome State Fault Refusal :=
  .next (s.portText idx off count)

/-- IDENT (R193). -/
def execSvcIdent (s : State) : Host.Outcome State Fault Refusal := .next s.portIdent

/-- DELETE (R148, R194). -/
def execSvcDelete (idx : Byte) (s : State) : Host.Outcome State Fault Refusal :=
  .next (s.portEntry idx (s.deleteEntry idx.toNat))

/-- KEEP (R148, R194). -/
def execSvcKeep (idx : Byte) (s : State) : Host.Outcome State Fault Refusal :=
  .next (s.portEntry idx (s.keepEntry idx.toNat))

/-- RELEASE (R148, R194). -/
def execSvcRelease (idx : Byte) (s : State) : Host.Outcome State Fault Refusal :=
  .next (s.portEntry idx (s.releaseEntry idx.toNat))

/-- RESET (R194). -/
def execSvcReset (s : State) : Host.Outcome State Fault Refusal := .next s.portReset

/-- NAK (R192). -/
def execSvcNak (cmd : Byte) (params : List Byte) (s : State) : Host.Outcome State Fault Refusal :=
  .next (s.portNak cmd params)

end Sys2Proof.Machine
end

