-- ==== Sys2Proof/Machine/PrintCmds.lean ====
section
/-! DEFINITION. The meanings of the Print Controller's commands. -/

namespace Sys2Proof.Machine

/-- LOCAL_GRANT (R94). -/
def execLocalGrant (s : State) : Host.Outcome State Fault Refusal :=
  stepWhen s.localGrantDue (fun s => s.setPrinter s.printer.grantLocal) s

/-- LOCAL_ENTRY_TAKEN (R16, R94). -/
def execLocalEntryTaken (s : State) : Host.Outcome State Fault Refusal := stepWhen s.localTakeDue State.takeLocalEntry s

/-- LOCAL_IDLE_TIMEOUT (R94). -/
def execLocalIdleTimeout (s : State) : Host.Outcome State Fault Refusal :=
  stepWhen s.localIdleDue (fun s => s.setPrinter { s.printer with right := .free }) s

/-- DRAIN_GRANT (R95). -/
def execDrainGrant (s : State) : Host.Outcome State Fault Refusal := stepWhen s.drainGrantDue State.grantDrain s

/-- DRAIN_READ (R96). -/
def execDrainRead (s : State) : Host.Outcome State Fault Refusal := stepWhen s.drainReadDue State.drainRead s

/-- FORM_COMMAND (R97, R101). -/
def execFormCommand (s : State) : Host.Outcome State Fault Refusal :=
  stepWhen s.formDue (fun s => (s.setPrinter (s.printer.form s.loader.straps.anl)).judgePrint) s

/-- PRINT_DONE (R97, R103): ignored unless the active stage holds an issued command. DESIGN CHOICE (log 35): the input
names no command, so a late DONE of an abandoned one (R107) that finds the recovery homing issued is the homing's. -/
def execPrintDone (s : State) : Host.Outcome State Fault Refusal :=
  stepWhen s.printer.issued (fun s => (s.setPrinter s.printer.done).judgePrint) s

/-- PAPER_OUT (R105, R156). -/
def execPaperOut (s : State) : Host.Outcome State Fault Refusal := 
  stepWhen s.printer.paper.rises (State.thenEvents State.paperOut) s

/-- PAPER_BACK (R105, R106). -/
def execPaperBack (s : State) : Host.Outcome State Fault Refusal := 
  stepWhen s.printer.paper.falls (State.thenEvents State.paperBack) s

/-- FAULT_ASSERTED (R107). -/
def execFaultAsserted (s : State) : Host.Outcome State Fault Refusal :=
  stepWhen s.printer.fault.rises (State.thenEvents State.faultAsserted) s

/-- FAULT_CLEARED (R107). -/
def execFaultCleared (s : State) : Host.Outcome State Fault Refusal :=
  stepWhen s.printer.fault.falls (fun s => s.setPrinter s.printer.faultCleared) s

/-- AT_SPEED (R108). -/
def execAtSpeed (s : State) : Host.Outcome State Fault Refusal :=
  stepWhen s.printer.atSpeedDue (fun s => s.setPrinter s.printer.toSpeed) s

/-- AT_SPEED_LOST (R108). -/
def execAtSpeedLost (s : State) : Host.Outcome State Fault Refusal := 
  stepWhen s.printer.lostDue (State.thenEvents State.speedLost) s

/-- MOTOR_START_TIMEOUT (R108). -/
def execMotorStartTimeout (s : State) : Host.Outcome State Fault Refusal :=
  stepWhen s.printer.startTimeoutDue (State.thenEvents State.startTimeout) s

/-- RUN_ON_EXPIRED (R109). -/
def execRunOnExpired (s : State) : Host.Outcome State Fault Refusal :=
  stepWhen s.printer.runOutDue (fun s => s.setPrinter s.printer.stopMotor) s

/-- STOP_REQUEST_MET (R109). -/
def execStopRequestMet (s : State) : Host.Outcome State Fault Refusal :=
  stepWhen s.printer.stopMetDue (fun s => s.setPrinter s.printer.stopMotor) s

end Sys2Proof.Machine
end

