-- ==== Sys2Proof/Machine/PunchCmds.lean ====
section
/-! DEFINITION. The meanings of the Punch Controller's commands, of the retry timers and of the alarm. -/

namespace Sys2Proof.Machine

/-- KEYBOARD_IDLE_TIMEOUT (R120). -/
def execKeyboardIdleTimeout (s : State) : Host.Outcome State Fault Refusal :=
  stepWhen s.punch.keyboardIdle (fun s => s.setPunch s.punch.release) s

/-- PUNCH_DONE (R122): ignored while the active stage is empty. -/
def execPunchDone (s : State) : Host.Outcome State Fault Refusal := .next (s.setPunch s.punch.done)

/-- TAPE_LOW (R123). -/
def execTapeLow (s : State) : Host.Outcome State Fault Refusal :=
  stepWhen s.punch.low.rises
    (State.thenEvents fun s => (s.setPunch { s.punch with low := s.punch.low.change }).raise 8 none) s

/-- TAPE_LOW_CLEARED (R123). -/
def execTapeLowCleared (s : State) : Host.Outcome State Fault Refusal :=
  stepWhen s.punch.low.falls (fun s => s.setPunch { s.punch with low := s.punch.low.change }) s

/-- TAPE_OUT (R123, R124). -/
def execTapeOut (s : State) : Host.Outcome State Fault Refusal := 
  stepWhen s.punch.out.rises (State.thenEvents State.tapeOut) s

/-- TAPE_OUT_CLEARED (R123). -/
def execTapeOutCleared (s : State) : Host.Outcome State Fault Refusal :=
  stepWhen s.punch.out.falls (fun s => s.setPunch { s.punch with out := s.punch.out.change }) s

/-- RETRY_TIMER_EXPIRED (R144, R169). -/
def execRetryTimerExpired (i : BitVec 5) (s : State) : Host.Outcome State Fault Refusal :=
  stepWhen (s.retryDue i.toNat)
    (fun s => (s.setStore (s.store.modify i.toNat fun e => { e with retry := none })).wake) s

/-- ALARM_PULSE_END (R179). -/
def execAlarmPulseEnd (s : State) : Host.Outcome State Fault Refusal :=
  stepWhen (s.links.alarm = some 0) (fun s => s.setLinks { s.links with alarm := none }) s

end Sys2Proof.Machine
end

