-- ==== Sys2Proof/Machine/ResetCmds.lean ====
section
/-! DEFINITION. The meanings of the reset and start-up commands. -/

namespace Sys2Proof.Machine

/-- POWER_ON (R188, R187 step 1). -/
def execPowerOn (s : State) : Host.Outcome State Fault Refusal := .next s.powerOn

/-- RESET_PIN_ASSERTED (R17, R187 step 1, R188). -/
def execResetPinAsserted (s : State) : Host.Outcome State Fault Refusal := .next s.resetPin

/-- RESET_RELEASE (R182, R183, R187 step 2): only while reset is asserted. -/
def execResetRelease (st : Straps) (s : State) : Host.Outcome State Fault Refusal :=
  stepWhen (s.loader.phase = .inReset) (fun s => s.release st) s

/-- CONFIG_READ_DONE (R184, R185, R187): only while a read attempt is in progress. -/
def execConfigReadDone (img : Option (Vector Byte 65)) (s : State) : Host.Outcome State Fault Refusal :=
  stepWhen (s.loader.phase = .reading) (fun s => s.configRead img) s

/-- CONFIG_RETRY_TIMEOUT (R184). -/
def execConfigRetryTimeout (s : State) : Host.Outcome State Fault Refusal :=
  stepWhen s.retryReadDue (fun s => s.setLoader { s.loader with phase := .reading }) s

/-- CONFIG_FLASH_TOGGLE (R2). -/
def execConfigFlashToggle (s : State) : Host.Outcome State Fault Refusal :=
  stepWhen s.flashDue (fun s => s.setLoader { s.loader with flashLit := !s.loader.flashLit, flash := 0 }) s

end Sys2Proof.Machine
end

