-- ==== Sys2Proof/Machine/Dispatch.lean ====
section
/-! DEFINITION. One arm per command. -/

namespace Sys2Proof.Machine

def exec (i : Instr) (s : State) : Host.Outcome State Fault Refusal :=
  match i with
  | .powerOn => Sys2Proof.Machine.execPowerOn s
  | .resetPinAsserted => Sys2Proof.Machine.execResetPinAsserted s
  | .resetRelease st => Sys2Proof.Machine.execResetRelease st s
  | .configReadDone image => Sys2Proof.Machine.execConfigReadDone image s
  | .configRetryTimeout => Sys2Proof.Machine.execConfigRetryTimeout s
  | .configFlashToggle => Sys2Proof.Machine.execConfigFlashToggle s
  | .sample rxP rxN => Sys2Proof.Machine.execSample rxP rxN s
  | .restRecognised => Sys2Proof.Machine.execRestRecognised s
  | .breakSeen => Sys2Proof.Machine.execBreakSeen s
  | .burstEnd => Sys2Proof.Machine.execBurstEnd s
  | .lineFaultAsserted => Sys2Proof.Machine.execLineFaultAsserted s
  | .lineFaultCleared => Sys2Proof.Machine.execLineFaultCleared s
  | .localLoopEnded => Sys2Proof.Machine.execLocalLoopEnded s
  | .elementTick => Sys2Proof.Machine.execElementTick s
  | .integratorDecrement w => Sys2Proof.Machine.execIntegratorDecrement w s
  | .integratorFlagChange => Sys2Proof.Machine.execIntegratorFlagChange s
  | .errorLampTimeout => Sys2Proof.Machine.execErrorLampTimeout s
  | .refusalPoint => Sys2Proof.Machine.execRefusalPoint s
  | .windowEnd => Sys2Proof.Machine.execWindowEnd s
  | .holdLimitExpired => Sys2Proof.Machine.execHoldLimitExpired s
  | .slotExamine => Sys2Proof.Machine.execSlotExamine s
  | .guardReached => Sys2Proof.Machine.execGuardReached s
  | .elementEnd => Sys2Proof.Machine.execElementEnd s
  | .holdTimeout => Sys2Proof.Machine.execHoldTimeout s
  | .noAnswerBack => Sys2Proof.Machine.execNoAnswerBack s
  | .obligationLapse => Sys2Proof.Machine.execObligationLapse s
  | .watchLineEnd => Sys2Proof.Machine.execWatchLineEnd s
  | .scanRow inp => Sys2Proof.Machine.execScanRow inp s
  | .keyDown p => Sys2Proof.Machine.execKeyDown p s
  | .keyUp k => Sys2Proof.Machine.execKeyUp k s
  | .callKey => Sys2Proof.Machine.execCallKey s
  | .collectKey => Sys2Proof.Machine.execCollectKey s
  | .endKey => Sys2Proof.Machine.execEndKey s
  | .breakKey => Sys2Proof.Machine.execBreakKey s
  | .hereIs => Sys2Proof.Machine.execHereIs s
  | .cancelKey => Sys2Proof.Machine.execCancelKey s
  | .modeChange => Sys2Proof.Machine.execModeChange s
  | .punchSwitchChange => Sys2Proof.Machine.execPunchSwitchChange s
  | .attendedChange => Sys2Proof.Machine.execAttendedChange s
  | .lockTimerExpired => Sys2Proof.Machine.execLockTimerExpired s
  | .prepareEntryTaken => Sys2Proof.Machine.execPrepareEntryTaken s
  | .watchEntered => Sys2Proof.Machine.execWatchEntered s
  | .localGrant => Sys2Proof.Machine.execLocalGrant s
  | .localEntryTaken => Sys2Proof.Machine.execLocalEntryTaken s
  | .localIdleTimeout => Sys2Proof.Machine.execLocalIdleTimeout s
  | .drainGrant => Sys2Proof.Machine.execDrainGrant s
  | .drainRead => Sys2Proof.Machine.execDrainRead s
  | .formCommand => Sys2Proof.Machine.execFormCommand s
  | .printDone => Sys2Proof.Machine.execPrintDone s
  | .paperOut => Sys2Proof.Machine.execPaperOut s
  | .paperBack => Sys2Proof.Machine.execPaperBack s
  | .faultAsserted => Sys2Proof.Machine.execFaultAsserted s
  | .faultCleared => Sys2Proof.Machine.execFaultCleared s
  | .atSpeed => Sys2Proof.Machine.execAtSpeed s
  | .atSpeedLost => Sys2Proof.Machine.execAtSpeedLost s
  | .motorStartTimeout => Sys2Proof.Machine.execMotorStartTimeout s
  | .runOnExpired => Sys2Proof.Machine.execRunOnExpired s
  | .stopRequestMet => Sys2Proof.Machine.execStopRequestMet s
  | .keyboardIdleTimeout => Sys2Proof.Machine.execKeyboardIdleTimeout s
  | .punchDone => Sys2Proof.Machine.execPunchDone s
  | .tapeLow => Sys2Proof.Machine.execTapeLow s
  | .tapeLowCleared => Sys2Proof.Machine.execTapeLowCleared s
  | .tapeOut => Sys2Proof.Machine.execTapeOut s
  | .tapeOutCleared => Sys2Proof.Machine.execTapeOutCleared s
  | .retryTimerExpired idx => Sys2Proof.Machine.execRetryTimerExpired idx s
  | .alarmPulseEnd => Sys2Proof.Machine.execAlarmPulseEnd s
  | .selectLow => Sys2Proof.Machine.execSelectLow s
  | .selectHigh => Sys2Proof.Machine.execSelectHigh s
  | .svcStatus => Sys2Proof.Machine.execSvcStatus s
  | .svcAlertMask param => Sys2Proof.Machine.execSvcAlertMask param s
  | .svcQuality => Sys2Proof.Machine.execSvcQuality s
  | .svcLog n => Sys2Proof.Machine.execSvcLog n s
  | .svcDirectory idx => Sys2Proof.Machine.execSvcDirectory idx s
  | .svcText idx off count => Sys2Proof.Machine.execSvcText idx off count s
  | .svcIdent => Sys2Proof.Machine.execSvcIdent s
  | .svcDelete idx => Sys2Proof.Machine.execSvcDelete idx s
  | .svcKeep idx => Sys2Proof.Machine.execSvcKeep idx s
  | .svcRelease idx => Sys2Proof.Machine.execSvcRelease idx s
  | .svcReset => Sys2Proof.Machine.execSvcReset s
  | .svcNak cmd params => Sys2Proof.Machine.execSvcNak cmd params s

end Sys2Proof.Machine
end

