-- ==== Sys2Proof/Safety.lean ====
section
/-! DEFINITION. What a timely run is: no sample and no tick overtakes a step of the block's own that is due. The spec
takes each of those at the sample or tick that makes it due. -/

namespace Sys2Proof.Safety

open Sys2Proof.Machine

/-- None of the block's own steps is due. -/
def settled (s : State) : Bool := s.firstDue.isNone

/-- The command moves one of the block's two clocks on. -/
def isClock : Instr → Bool
  | .sample _ _ => true
  | .scanRow _ => true
  | _ => false

/-- The command may come now: a clock command only to a settled block. -/
def timely (c : Instr) (s : State) : Bool := !isClock c || settled s

/-- Every command of a list, taken in order, is timely. -/
def timelyRun : List Instr → State → Bool
  | [], _ => true
  | c :: cs, s =>
    timely c s &&
      (match exec c s with
       | .next t => timelyRun cs t
       | .fault _ => false
       | .refused _ => false)

/-! ### Frames -/

/-- The parts of the state: the blocks of section 2.1, and the waiting commands. -/
inductive Block where
  | loader | liu | framer | gauge | quality | sender | listener | tracker | kbd | printer | punch | store | answer
  | links | port | pending
  deriving DecidableEq, Repr

/-- The two states agree in a block. -/
def same (b : Block) (s t : State) : Prop :=
  match b with
  | .loader => t.loader = s.loader
  | .liu => t.liu = s.liu
  | .framer => t.framer = s.framer
  | .gauge => t.gauge = s.gauge
  | .quality => t.quality = s.quality
  | .sender => t.sender = s.sender
  | .listener => t.listener = s.listener
  | .tracker => t.tracker = s.tracker
  | .kbd => t.kbd = s.kbd
  | .printer => t.printer = s.printer
  | .punch => t.punch = s.punch
  | .store => t.store = s.store
  | .answer => t.answer = s.answer
  | .links => t.links = s.links
  | .port => t.port = s.port
  | .pending => t.pending = s.pending

/-- `t` agrees with `s` in every block that is not one of `bs`. -/
def keeps (bs : List Block) (s t : State) : Prop := ∀ b, b ∉ bs → same b s t

/-- What the acting of an event that names no call can reach (R173, R176 to R180). -/
def eventBlocks : List Block := [.printer, .store, .links]

/-- What PRINTER-NOT-READY can reach: text switched to spooling may ask for a break burst (R105, R156, R157). -/
def switchBlocks : List Block := [.liu, .tracker, .printer, .store, .answer, .links]

/-- What the end of a job can reach. -/
def jobBlocks : List Block := [.sender, .kbd, .printer, .store, .answer, .links]

/-- What the end of a call can reach. -/
def callBlocks : List Block := [.sender, .tracker, .kbd, .printer, .punch, .store, .answer, .links]

/-- Every block, but not the waiting commands. -/
def allBlocks : List Block :=
  [.loader, .liu, .framer, .gauge, .quality, .sender, .listener, .tracker, .kbd, .printer, .punch, .store, .answer,
    .links, .port]

/-- The blocks that a command can change. -/
def touched : Instr → List Block
  | .powerOn => allBlocks
  | .resetPinAsserted => allBlocks
  | .resetRelease _ => [.loader, .liu, .printer]
  | .configReadDone _ => [.loader, .sender, .printer, .answer, .links]
  | .configRetryTimeout => [.loader]
  | .configFlashToggle => [.loader]
  | .sample _ _ => [.liu, .framer, .gauge, .quality, .listener, .port] ++ callBlocks
  | .restRecognised => [.liu, .framer, .listener] ++ callBlocks
  | .breakSeen => [.liu, .framer, .gauge, .listener] ++ callBlocks
  | .burstEnd => [.liu]
  | .lineFaultAsserted => [.liu, .framer, .gauge, .quality, .listener, .port] ++ callBlocks
  | .lineFaultCleared => [.liu]
  | .localLoopEnded => [.liu]
  | .elementTick => [.liu, .quality]
  | .integratorDecrement _ => [.quality]
  | .integratorFlagChange => [.quality, .tracker] ++ eventBlocks
  | .errorLampTimeout => [.quality]
  | .refusalPoint => [.liu, .listener, .tracker, .answer]
  | .windowEnd => [.listener, .punch] ++ switchBlocks
  | .holdLimitExpired => callBlocks
  | .slotExamine => [.sender, .kbd, .store]
  | .guardReached => .liu :: jobBlocks
  | .elementEnd => .liu :: jobBlocks
  | .holdTimeout => [.liu, .sender, .tracker]
  | .noAnswerBack => [.tracker]
  | .obligationLapse => jobBlocks
  | .watchLineEnd => callBlocks
  | .scanRow _ => [.loader, .quality, .kbd, .printer, .punch, .store, .answer, .links]
  | .keyDown _ => [.kbd, .punch] ++ eventBlocks
  | .keyUp _ => [.kbd]
  | .callKey => [.kbd]
  | .collectKey => [.kbd]
  | .endKey => [.kbd]
  | .breakKey => .liu :: callBlocks
  | .hereIs => [.kbd, .punch]
  | .cancelKey => [.sender, .kbd, .store]
  | .modeChange => [.kbd, .punch, .store]
  | .punchSwitchChange => [.tracker, .kbd, .punch]
  | .attendedChange => [.kbd]
  | .lockTimerExpired => [.kbd]
  | .prepareEntryTaken => .kbd :: eventBlocks
  | .watchEntered => [.kbd, .answer]
  | .localGrant => [.printer]
  | .localEntryTaken => [.kbd, .printer]
  | .localIdleTimeout => [.printer]
  | .drainGrant => [.printer, .store]
  | .drainRead => [.printer, .store]
  | .formCommand => [.printer, .store]
  | .printDone => [.printer, .store]
  | .paperOut => switchBlocks
  | .paperBack => eventBlocks
  | .faultAsserted => switchBlocks
  | .faultCleared => [.printer]
  | .atSpeed => [.printer]
  | .atSpeedLost => switchBlocks
  | .motorStartTimeout => switchBlocks
  | .runOnExpired => [.printer]
  | .stopRequestMet => [.printer]
  | .keyboardIdleTimeout => [.punch]
  | .punchDone => [.punch]
  | .tapeLow => .punch :: eventBlocks
  | .tapeLowCleared => [.punch]
  | .tapeOut => [.tracker, .punch] ++ eventBlocks
  | .tapeOutCleared => [.punch]
  | .retryTimerExpired _ => [.kbd, .store, .answer]
  | .alarmPulseEnd => [.links]
  | .selectLow => [.kbd, .answer, .port]
  | .selectHigh => allBlocks
  | .svcStatus => [.port]
  | .svcAlertMask _ => [.port]
  | .svcQuality => [.port]
  | .svcLog _ => [.port]
  | .svcDirectory _ => [.port]
  | .svcText _ _ _ => [.store, .port]
  | .svcIdent => [.port]
  | .svcDelete _ => [.printer, .store, .port]
  | .svcKeep _ => [.store, .port]
  | .svcRelease _ => [.store, .port]
  | .svcReset => [.port]
  | .svcNak _ _ => [.port]

/-! ### What every state of a run satisfies -/

/-- The store as R127 to R136 keep it. -/
structure StoreSound (st : Store) : Prop where
  /-- The memory is in its canonical form. -/
  canonical : Memory.wf st.cells = true
  /-- The directory has 32 slots (R131). -/
  slots : st.slots.length = 32
  /-- The creation order lists the present entries, each once (R131). -/
  orderNodup : st.order.Nodup
  orderPresent : ∀ i, i ∈ st.order ↔ (st.entry i).isSome
  /-- Each block is in the free set or in one entry's chain, never in two places (R129). -/
  blocks : (st.free ++ st.slots.flatMap fun o => o.elim [] DirEntry.chain).Perm (List.range 64)
  /-- The free set is listed by block number, so that its first is the lowest (R129). -/
  freeRising : st.free.Pairwise (· < ·)
  /-- A chain holds 1 to 64 blocks, and the text fits it (R131, R136). -/
  chains : ∀ i e, st.entry i = some e → 1 ≤ e.chain.length ∧ e.len ≤ 256 * e.chain.length
  /-- STORE-HIGH follows the free count (R130). -/
  high : st.high = decide (st.free.length ≤ 16)

/-- The counters and queues of a state within the ranges that the spec gives them. -/
structure Bounded (s : State) : Prop where
  /-- R6: an element is being sent all the while in SENDING. -/
  element : s.liu.drive = .sending → s.liu.elem.isSome = true
  /-- R8, R9. -/
  quiet : s.liu.quiet ≤ 17088
  hold : s.liu.hold ≤ 512
  /-- R32. -/
  fine : s.quality.fine.counter ≤ 255 ∧ s.quality.fine.age ≤ 8192
  coarse : s.quality.coarse.counter ≤ 63 ∧ s.quality.coarse.age ≤ 8192
  /-- R44, R45. -/
  guard : s.sender.guard ≤ 87
  /-- R42, R44: an IDLE Sender holds no job, and an obligation waits only while REST holds. -/
  slot : (s.sender.phase = .idle → s.sender.job = none) ∧ (s.liu.rest = false → s.sender.oblig = none)
  /-- R29, R62, R68. -/
  figures : s.tracker.errs ≤ 255 ∧ s.tracker.maxD ≤ 32
  held : ∀ c, s.tracker.call = some c → c.log.errs ≤ 255 ∧ c.log.maxD ≤ 32 ∧ c.log.chars ≤ 65535 ∧ c.deliveries ≤ 8
  log : s.tracker.log.length + s.tracker.call.toList.length ≤ 16
  serial : s.tracker.lastSerial ≤ 9999
  /-- R74, R75. -/
  typeAhead : s.kbd.queue.length ≤ 32 ∧ (s.kbd.locked = false → s.kbd.queue.length < 32)
  /-- R90, R99, R102. -/
  print : s.printer.queue.length ≤ 64
  carriage : 1 ≤ s.printer.column ∧ s.printer.column ≤ 81 ∧ s.printer.width ≤ 80
  /-- R107, R108: both stages are empty while FAULT holds the printer or a homing awaits AT-SPEED. -/
  stages : s.printer.fault.on = true ∨ s.printer.homeAtSpeed = true → s.printer.active = none ∧ s.printer.next = none
  /-- R112. -/
  punch : s.punch.queue.length ≤ 32
  /-- R161, R164, R165. -/
  answerBack : s.answer.answerBack.length = 20
  wrong : s.answer.wrong ≤ 3
  given : ∀ c, s.answer.coll = some c → c.given ≤ 8
  /-- R179. -/
  alarm : ∀ n, s.links.alarm = some n → n ≤ 1024
  /-- R172, R174: between commands no raised event waits. -/
  raised : s.links.raised = []

/-! ### Elements and commands, as the statements name them -/

/-- R4: the elements of a character after its start: its five bits, the least significant first, and the stop. -/
def characterElements (c : Code) : List ElemKind :=
  [if c.getLsbD 0 then .mark else .space, if c.getLsbD 1 then .mark else .space,
    if c.getLsbD 2 then .mark else .space, if c.getLsbD 3 then .mark else .space,
    if c.getLsbD 4 then .mark else .space, .stop]

/-- R100, R101, R102: the commands of an item of the print queue, by the column, the width and the ANL strap. -/
def itemCommands (column width : Nat) (anl : Bool) (it : PItem) : List PCmd :=
  let back : List PCmd := if 1 < column then [.ret (column - 1)] else []
  let line : List PCmd := if anl = true ∧ width < column then [.ret width, .feed] else []
  match it with
  | .start _ continued => if continued then [] else back ++ [.feed]
  | .finish _ => []
  | .code c err k _ =>
    if err = true then line ++ [.strike 0]
    else if c.toNat = 0 ∨ c.toNat = 14 ∨ c.toNat = 17 then []
    else if c.toNat = 5 then (if anl = false ∧ width < column then [] else line ++ [.advance])
    else if c.toNat = 9 then back
    else if c.toNat = 18 then [.feed]
    else
      match k with
      | .low => line ++ [.strike c.toNat]
      | .high =>
        if c.toNat = 25 then [.bell]
        else if c.toNat = 22 ∨ c.toNat = 29 ∨ c.toNat = 30 then []
        else line ++ [.strike (32 + c.toNat)]

/-! ### Characters, headers, rows and entries, as the statements name them -/

/-- R28: how far a transition at t lies from its nominal boundary; one in the first half of the start element and one on
the stop sample count 32. -/
def displaced (t : Nat) : Nat :=
  if t < 32 ∨ 416 ≤ t then 32 else ((t : Int) - 64 * ((t + 32) / 64 : Nat)).natAbs

/-- R29: the distortion D of a character's recorded transitions. -/
def distortionOf (ts : List Nat) : Nat := (ts.map displaced).foldr max 0

/-- R40: the five header characters spell a valid header. -/
def headerSpelled (cs : List (Code × Bool)) (o : StationCode) (k : SendKind) (d : StationCode) : Prop :=
  cs =
      [(o.c1, false), (o.c2, false),
        ((match k with | .message => 1 | .answer => 2 | .cont => 3 | .poll => 4 | .deliver => 5 : Code), false),
        (d.c1, false), (d.c2, false)] ∧
    o.c1 ≠ 0 ∧ o.c2 ≠ 0 ∧ ¬(o.c1 = 31 ∧ o.c2 = 31) ∧ d.c1 ≠ 0 ∧ d.c2 ≠ 0

/-- The rows that the punch still has to punch, in their order (R112, R122). -/
def punchRows (p : Punch) : List Row := p.active.toList ++ p.next.toList ++ p.queue

/-- R113, R116, R118: of `waiting` rows like `r`, `n` have joined, all of them or as many as there were places. -/
def rowsJoined (p q : Punch) (r : Row) (waiting n : Nat) : Prop :=
  punchRows q = punchRows p ++ List.replicate n r ∧ n ≤ waiting ∧ (n < waiting → 32 ≤ q.queue.length)

/-- R126: the call's ownership is in LEADER or TEXT, or a TEXT row of it has still to be punched. -/
def punchCut (p : Punch) (n : Nat) : Prop :=
  (∃ o, p.own = some o ∧ o.tag = .call n ∧ o.phase ≠ .trailer) ∨
    ∃ r, r ∈ punchRows p ∧ r.kind = .text ∧ r.tag = .call n

/-- R117, R118: a text code `c` of the call `n` has been offered to the punch `p`, and left `q`: one more TEXT row, or the
cut mark, or nothing where the call does not own the punch, its trailer has begun or its copy is cut. `x` is the call's
punch result before, `y` the one after. -/
def codeOffered (p q : Punch) (n : Nat) (c : Code) (x y : PunchResult) : Prop :=
  (∀ w, p.own = some w → w.tag = .call n →
    (w.phase = .text → w.cut = false → w.leader = 0 → p.queue.length < 32 → (p.active = none → p.next = none) →
      punchRows q = punchRows p ++ [⟨c, .text, .call n⟩] ∧ q.own = some w ∧ y = x) ∧
    (w.phase ≠ .trailer → w.cut = false → w.leader ≠ 0 ∨ 32 ≤ p.queue.length →
      q = { p with own := some { w with cut := true } } ∧ y = .incomplete)) ∧
  ((∀ w, p.own = some w → w.tag = .call n → w.phase = .trailer ∨ w.cut = true) → q = p ∧ y = x)

/-- R172: the events that the step `f` raises at `s`, in the order in which its blocks raise them. -/
def raisedBy (f : State → State) (s : State) : List Event :=
  (f { s with links := { s.links with raised := [] } }).links.raised.map Raised.event

/-- R62, R138: the call `c` is doubtful at `t`, and so is every OPEN RECEIVED entry of it. -/
def doubtMarked (c : Call) (t : State) : Prop :=
  (∃ b, t.tracker.call = some b ∧ b.log.serial = c.log.serial ∧ b.log.doubtful = true) ∧
    ∀ i e, t.store.entry i = some e → e.kind = .received → e.state = .opened → e.serial = c.log.serial →
      e.doubtful = true

/-- R130: of an operation that takes `u` to `v`: an allocation that sets STORE-HIGH raises event 13, once; one that leaves
another free count than 16 raises nothing, and no more does one that, with no need to reclaim a slot, takes no block. -/
def highRaisedOnce (u v : State) : Prop :=
  (u.store.high = false → v.store.high = true → v.links.raised = u.links.raised ++ [⟨⟨13, none, none⟩, 16⟩]) ∧
    (v.store.free.length ≠ 16 ∨ (none ∈ u.store.slots ∧ v.store.free = u.store.free) →
      v.links.raised = u.links.raised)

/-- R143, R146: what the settlement by an outcome makes of a SENDING entry; none where it is deleted. -/
def settledEntry (e : DirEntry) (o : CallOutcome) : Option DirEntry :=
  if o = .complete then (if e.kept = true then some { e with state := .sent, sending := none } else none)
  else if e.attempts < 3 then
    some { e with state := .ready, attempts := e.attempts + 1, retry := some 30720, sending := none }
  else some { e with state := .failed, attempts := 4, retry := none, sending := none }

/-- R86: the keyboard once its call request has ended badly: no request, a LINE or COLLECT set-up READY again, and no LINE
entry left; R75: LOCKED is kept only where more than 24 entries are. -/
def requestEnded (k : Kbd) : Kbd :=
  let kept := k.queue.filter fun e => decide (e.route ≠ .line)
  { k with
    request := none, queue := kept, locked := k.locked && decide (24 < kept.length)
    setup := match k.setup with
      | .dest1 .prepare | .dest2 .prepare _ | .openPrepare _ _ => k.setup
      | _ => .ready }

/-- R86: the keyboard's own job, with its typed text or its access code. -/
def keyboardJob (j : Job) : Prop :=
  (j.kind = .message ∨ j.kind = .poll) ∧ (j.source = .keyboard ∨ ∃ cs, j.source = .access cs)

/-- R165: the oldest HELD entry that is READY-HELD. -/
def nextHeld (st : Store) : Option Nat :=
  st.order.find? fun i => (st.entry i).any fun e => decide (e.kind = .held ∧ e.state = .readyHeld)

/-- R156, R157: the message of the record `d` and the call `c`, in DIRECT at `s`, has been switched over at `t`: to a
CONTINUED entry where one can be created, and else it is lost, with the overflow break of a CALLED station. -/
def switchedOver (s : State) (c : Call) (d : DispRecord) (t : State) : Prop :=
  t.printer.right ≠ .line c.log.serial ∧
    ∃ r b, t.answer.disp = some r ∧ t.tracker.call = some b ∧ b.log.serial = c.log.serial ∧
      (d.deliver = false → b.log.disp = r.recorded) ∧
      (s.spoolPossible = true →
        r.state = .spool ∧ r.recorded = some .split ∧ r.taken = d.taken ∧ r.spoolCase = .low ∧ r.contFirst = true ∧
          ∃ i e, r.entry = some i ∧ t.store.entry i = some e ∧ e.kind = .received ∧ e.state = .opened ∧
            e.continued = true ∧ e.serial = c.log.serial ∧ e.origin = d.origin ∧ e.dest = d.dest ∧ e.len = 0) ∧
      (s.spoolPossible = false →
        r.state = .lost ∧ r.recorded = some (if d.taken = true then .partLost else .lost) ∧
          (c.log.role = .called → d.deliver = false → s.burstAllowed = true →
            t.liu = { s.liu with drive := .burst, burstN := 0 }))

/-! ### Responses of the service port, as the statements name them -/

/-- A flag as the bit of a weight. -/
def weigh (b : Bool) (w : Nat) : Nat := if b then w else 0

/-- A number as two bytes, the high one first. -/
def highLow (n : Nat) : List Byte := [BitVec.ofNat 8 (n / 256), BitVec.ofNat 8 n]

/-- The code of an outcome in LOG and DIRECTORY. -/
def outcomeCode (o : Option CallOutcome) : Byte :=
  match o with
  | none => 0 | some .complete => 1 | some .incomplete => 2 | some .broken => 3 | some .refused => 4
  | some .aborted => 5 | some .notServed => 6

/-- R193: the 38 bytes of a call record, as the LOG table lists them. -/
def callRecordBytes (r : LogRecord) : List Byte :=
  highLow r.serial ++
    [match r.role with | .caller => 1 | .called => 2 | .member => 3 | .watcher => 4,
      r.origin.c1.setWidth 8, r.origin.c2.setWidth 8, r.dest.c1.setWidth 8, r.dest.c2.setWidth 8,
      match r.kind with | .message => 1 | .poll => 4, outcomeCode r.outcome,
      match r.disp with
      | none => 0 | some .direct => 1 | some .spool => 2 | some .split => 3 | some .lost => 4 | some .partLost => 5
      | some .refused => 6] ++
    highLow r.chars ++
    [BitVec.ofNat 8 r.errs, BitVec.ofNat 8 r.maxD,
      BitVec.ofNat 8 (weigh r.doubtful 1 + weigh r.timedOut 2 + weigh r.noAnswerBack 4 + weigh r.answeredBy.isSome 8 +
        weigh r.dirIndex.isSome 16 + weigh r.deliveries.isSome 32),
      match r.punch with | .none => 0 | .punched => 1 | .incomplete => 2 | .missed => 3,
      match r.dirIndex with | some i => BitVec.ofNat 8 i | none => 0,
      match r.deliveries with | some n => BitVec.ofNat 8 n | none => 0] ++
    (List.range 20).map fun k =>
      match r.answeredBy with
      | some l => (match l[k]? with | some c => c.setWidth 8 | none => 0)
      | none => 0

/-- R193: the 22 bytes of a present entry, as the DIRECTORY table lists them; `pos` is its place in the creation order. -/
def directoryBytes (e : DirEntry) (pos : Nat) : List Byte :=
  [match e.kind with | .received => 1 | .prepared => 2 | .held => 3,
      match e.state with
      | .opened => 1 | .closed => 2 | .ready => 3 | .sending => 4 | .failed => 5 | .sent => 6 | .readyHeld => 7
      | .delivering => 8 | .delivered => 9,
      BitVec.ofNat 8 pos] ++
    (if e.kind = .received then highLow e.serial else [0, 0]) ++
    [e.origin.c1.setWidth 8, e.origin.c2.setWidth 8, e.dest.c1.setWidth 8, e.dest.c2.setWidth 8,
      outcomeCode e.outcome] ++
    highLow e.len ++
    [BitVec.ofNat 8 e.chain.length,
      if e.kind = .received then (match e.print with | .waiting => 1 | .printing => 2 | .printed => 3) else 0] ++
    (if e.kind = .received then highLow e.printPos else [0, 0]) ++
    [BitVec.ofNat 8 (weigh e.doubtful 1 + weigh e.damaged 2 + weigh e.continued 4 + weigh e.kept 8),
      BitVec.ofNat 8 e.attempts] ++
    (match e.retry with | some n => highLow n | none => [0, 0]) ++
    (match e.sending with | some n => highLow n | none => [0, 0])

/-! ### Pin and service resets -/

/-- R149: what a pin or service reset makes of a store entry; none for one that is discarded. -/
def entryAfterReset (e : DirEntry) : Option DirEntry :=
  match e.kind with
  | .received =>
    some
      { e with
        state := if e.state = .opened then .closed else e.state
        outcome := if e.state = .opened then some .incomplete else e.outcome
        print := if e.print = .printing then .waiting else e.print
        printPos := if e.print = .printing then 0 else e.printPos }
  | .prepared =>
    if e.state = .opened then none
    else if e.state = .sending then some { e with state := .ready, sending := none }
    else if e.state = .ready then some { e with retry := e.retry.map fun _ => 30720 }
    else some e
  | .held =>
    if e.state = .opened then none
    else if e.state = .delivering then some { e with state := .readyHeld, sending := none }
    else some e

/-- A pin or service reset (R17, R18, R32, R69, R89, R110, R126, R149, R170, R179, R188, R191): every block takes its
reset values, and the straps, the SVC latch, the serial count, the call log and the store are kept. A call held is
completed INCOMPLETE, and the record of a call whose rows or ownership the reset cuts has the punch result INCOMPLETE. -/
def resetKeeping (s t : State) : Prop :=
  t.loader =
      { State.reset.loader with straps := s.loader.straps, svc := s.loader.svc, cause := t.loader.cause } ∧
    t.liu = { State.reset.liu with faultIn := s.liu.faultIn } ∧ t.framer = State.reset.framer ∧
    t.gauge = State.reset.gauge ∧ t.quality = State.reset.quality ∧ t.sender = State.reset.sender ∧
    t.listener = State.reset.listener ∧ t.kbd = State.reset.kbd ∧ t.printer = State.reset.printer ∧
    t.punch = State.reset.punch ∧ t.answer = State.reset.answer ∧ t.links = State.reset.links ∧
    t.port = { State.reset.port with selectLow := s.port.selectLow } ∧
    t.tracker.call = none ∧ t.tracker.lastSerial = s.tracker.lastSerial ∧
    (let before : List LogRecord :=
       match s.tracker.call with
       | none => s.tracker.log
       | some c => ({ c.log with outcome := some CallOutcome.incomplete } :: s.tracker.log).take 16
     t.tracker.log.length = before.length ∧
       ∀ (k : Nat) (r : LogRecord), before[k]? = some r →
         (punchCut s.punch r.serial → t.tracker.log[k]? = some { r with punch := .incomplete }) ∧
           (¬punchCut s.punch r.serial → t.tracker.log[k]? = some r)) ∧
    t.store.cells = s.store.cells ∧ t.store.fault = false ∧ t.store.hold = false ∧ t.store.note = none ∧
    (StoreSound s.store →
      StoreSound t.store ∧ (∀ i, t.store.entry i = (s.store.entry i).bind entryAfterReset) ∧
        t.store.order = s.store.order.filter fun i => (t.store.entry i).isSome)

end Sys2Proof.Safety
end

