-- ==== Sys2Proof/Certificates/Slice0/Obligations.lean ====
section
/-! DEFINITION. The statements about the KD-412 for the provers. -/

open Sys2Proof Sys2Proof.Machine Sys2Proof.Safety

/-! ### The queue and the outcome of a step -/

/-- The command at the front of the queue is taken, and the rest of the queue waits on. -/
def Obligations.StepTakesFrontCommand : Prop :=
  ∀ (c : Instr) (rest : List Instr) (s : State), s.pending = c :: rest → step s = exec c { s with pending := rest }

/-- On an empty queue the block takes one of its own steps that is due, or idles when none is (the model's choice, log
2); and a step of its own that is not due changes nothing (the model's choice, log 1), but for an element tick taken
ahead of the 64th sample (R36). -/
def Obligations.IdleBlockRunsOwnStep : Prop :=
  (∀ s : State, s.pending = [] →
     ((∀ c, s.due c = false) ∧ step s = .next s) ∨ ∃ c, s.due c = true ∧ step s = exec c s) ∧
  (∀ (c : Instr) (s : State), c ∈ ownSteps → c ≠ .elementTick → s.due c = false → exec c s = .next s)

/-- Every command in every state answers a next state, and leaves the waiting commands as they are. -/
def Obligations.CommandsAlwaysComplete : Prop :=
  ∀ (c : Instr) (s : State), ∃ t, exec c s = .next t ∧ t.pending = s.pending

/-- A command changes only the blocks that the table `Safety.touched` gives it. -/
def Obligations.CommandFrame : Prop :=
  ∀ (c : Instr) (s t : State), exec c s = .next t → keeps (touched c) s t

/-! ### Invariants -/

/-- Every step keeps the counters and queues within the ranges that the spec gives them. -/
def Obligations.StepKeepsBounds : Prop :=
  ∀ s t : State, Bounded s → step s = .next t → Bounded t

/-- Every step keeps the store sound: canonical cells, each block in one place, STORE-HIGH by the free count. -/
def Obligations.StepKeepsStoreSound : Prop :=
  ∀ s t : State, StoreSound s.store → step s = .next t → StoreSound t.store

/-- The reset state is within the bounds, and its store is sound. -/
def Obligations.ResetIsSound : Prop :=
  Bounded State.reset ∧ StoreSound State.reset.store

/-! ### Reset and start-up -/

/-- The state after power-on, block by block; and POWER_ON gives that state whatever went before, with the levels of
the LINE FAULT and select pins and the waiting commands as they stand (the model's choice, log 6). The values of that
state which the spec does not give are the model's choice (log 7). -/
def Obligations.PowerOnValues : Prop :=
  (let s := State.reset
   (s.loader.cause = .power ∧ s.loader.phase = .inReset ∧ s.loader.individual = none ∧ s.loader.groups = []) ∧
   (s.liu.divisor = none ∧ s.liu.quiet = 0 ∧ s.liu.rest = false ∧ s.liu.hold = 0 ∧ s.liu.drive = .off ∧
     s.liu.pol = .pos ∧ s.liu.faultLatch = false ∧ s.liu.driveP = false ∧ s.liu.driveN = false) ∧
   (s.framer.state = .waitRest ∧ s.framer.pol = .neg ∧ s.framer.run = 0 ∧ s.framer.revs = 0 ∧ s.framer.lock = none) ∧
   (s.quality.fine = ⟨0, 0, 0, false, false⟩ ∧ s.quality.coarse = ⟨0, 0, 0, false, false⟩ ∧ s.quality.lq = .good ∧
     s.quality.errLamp = none) ∧
   (s.sender.phase = .idle ∧ s.sender.job = none ∧ s.sender.oblig = none ∧ s.sender.courtesy = false) ∧
   (s.listener.phase = .atRest ∧ s.tracker.call = none ∧ s.tracker.log = [] ∧ nextSerial s.tracker.lastSerial = 1) ∧
   (s.kbd.queue = [] ∧ s.kbd.setup = .ready ∧ s.kbd.seq = false ∧ s.kbd.locked = false ∧ s.kbd.lockTimer = none ∧
     s.kbd.request = none) ∧
   (s.printer.queue = [] ∧ s.printer.right = .free ∧ s.printer.active = none ∧ s.printer.next = none ∧
     s.printer.motor = .stopped) ∧
   (s.punch.queue = [] ∧ s.punch.own = none ∧ s.punch.active = none ∧ s.punch.next = none) ∧
   (s.store.free = List.range 64 ∧ s.store.order = [] ∧ (∀ i, s.store.entry i = none) ∧ s.store.high = false ∧
     s.store.fault = false ∧ s.store.hold = false) ∧
   (s.answer.disp = none ∧ s.answer.pending = false ∧ s.answer.wrong = 0 ∧ s.answer.coll = none ∧
     s.answer.watch = false) ∧
   (s.links.lampA = false ∧ s.links.lampB = false ∧ s.links.alarm = none) ∧
   (s.port.txn = none ∧ s.port.errFlag = false ∧ s.port.mask = 0)) ∧
  (∀ s : State,
     exec .powerOn s =
       .next
         { State.reset with
           liu := { State.reset.liu with faultIn := s.liu.faultIn }
           port := { State.reset.port with selectLow := s.port.selectLow }
           pending := s.pending })

/-- RESET_PIN_ASSERTED resets every block and keeps the serial count, the call log and the store; a call held is
completed INCOMPLETE at the head of the log, and the punch result of each record whose rows or ownership the reset cuts
is INCOMPLETE. While power comes up it changes nothing (log 8). The values that the spec gives no reset for, and the
levels of the pins, are the model's choice (log 7, log 6), and so are the retry timer that starts again where it stood
at 0 with its expiry not yet taken (log 37), and the record's disposition without the value of a DELIVER that the reset
cuts (log 44). -/
def Obligations.ResetPinKeepsLogAndStore : Prop :=
  ∀ s : State,
    if s.loader.phase = .inReset ∧ s.loader.cause = .power then exec .resetPinAsserted s = .next s
    else ∃ t, exec .resetPinAsserted s = .next t ∧ t.loader.cause = .pin ∧ resetKeeping s t

/-- RESET_RELEASE samples the straps: RATE gives the divisor, STOP the stop length, WIDTH the columns, and SVC the
latch at a power-on release only; while no reset is asserted it changes nothing (the model's choice, log 1).
CONFIG_READ_DONE with an attempt not acknowledged, the first or the second: the Loader waits 16 ticks, and then
CONFIG_RETRY_TIMEOUT starts the next attempt. With RATE invalid the CONFIG lamp turns over every 512 ticks. -/
def Obligations.StrapsAndImageRead : Prop :=
  (∀ (st : Straps) (s : State),
     exec (.resetRelease st) s =
       .next
         (if s.loader.phase = .inReset then
           { s with
             loader :=
               { s.loader with
                 straps := st, svc := if s.loader.cause = .power then st.svc else s.loader.svc
                 phase := .reading, attempts := 0 }
             liu :=
               { s.liu with
                 divisor :=
                   [some 1152, some 768, some 576, some 384, some 288, some 192, none, none].getD st.rate.toNat none
                 stopLen := [64, 96, 128, 96].getD st.stop.toNat 0 }
             printer := { s.printer with width := [69, 72, 80, 72].getD st.width.toNat 0 } }
         else s)) ∧
  (((∀ s : State, s.loader.phase = .reading → s.loader.attempts < 2 →
      exec (.configReadDone none) s =
        .next { s with loader := { s.loader with attempts := s.loader.attempts + 1, phase := .waiting, wait := 16 } }) ∧
    ∀ s : State, s.loader.phase = .waiting → s.loader.wait = 0 →
      exec .configRetryTimeout s = .next { s with loader := { s.loader with phase := .reading } }) ∧
   (∀ s : State, s.loader.phase = .complete → 6 ≤ s.loader.straps.rate.toNat → 512 ≤ s.loader.flash →
      exec .configFlashToggle s =
        .next { s with loader := { s.loader with flashLit := !s.loader.flashLit, flash := 0 } }))

/-- CONFIG_READ_DONE with a final result, acknowledged or a third failure, completes start-up: the image is judged, the
tables are built, the generator is seeded, and the start-up homing is formed, unless a recovery homing takes its place
(log 29); that start-up is complete also where a recovery homing still fills the stages is the model's choice (log 52).
The group codes of the selection table are those of the image that pass R185's tests, each once. -/
def Obligations.FinalReadCompletesStartUp : Prop :=
  ∀ (img : Option (Vector Byte 65)) (s : State), s.loader.phase = .reading → (img = none → 2 ≤ s.loader.attempts) →
    ∃ t, exec (.configReadDone img) s = .next t ∧ t.loader.phase = .complete ∧
      t.loader.flashLit = decide (6 ≤ s.loader.straps.rate.toNat) ∧
      (s.printer.fault.on = false → s.printer.homeAtSpeed = false → s.printer.active = none → s.printer.next = none →
        t.printer.active.map Stage.cmd = some (.ret s.printer.width) ∧ t.printer.next.map Stage.cmd = some .feed ∧
          t.printer.homing = [] ∧ t.printer.column = 1) ∧
      (s.printer.fault.on = true ∨ s.printer.homeAtSpeed = true → t.printer = s.printer) ∧
      defaultLinks =
        [⟨0, 2, 3, true⟩, ⟨0, 10, 1, true⟩, ⟨3, 2, 4, true⟩, ⟨6, 0, 7, true⟩, ⟨7, 0, 8, true⟩, ⟨11, 0, 9, true⟩,
          ⟨12, 0, 10, true⟩] ++ List.replicate 9 ⟨0, 0, 0, false⟩ ∧
      (match img with
       | none => t.loader.config = some .noAnswer
       | some v =>
         t.loader.config =
           some
            (if v[0] ≠ 0x6B then .markerWrong
             else if v[1].setWidth 5 = (0 : Code) ∨ v[2].setWidth 5 = (0 : Code) ∨
                (v[1].setWidth 5 = (31 : Code) ∧ v[2].setWidth 5 = (31 : Code)) then .codeInvalid
             else .valid)) ∧
      (t.loader.config ≠ some .valid →
        t.loader.individual = none ∧ t.loader.groups = [] ∧ t.sender.gen = 0 ∧
          t.answer.answerBack = List.replicate 20 0 ∧ t.answer.facility = .disabled ∧
          t.links.table = some defaultLinks ∧ t.links.isDefault = true) ∧
      ∀ v, img = some v → t.loader.config = some .valid →
        t.loader.individual = some ⟨v[1].setWidth 5, v[2].setWidth 5⟩ ∧
          t.sender.gen.toNat = 32 * (v[1].setWidth 5).toNat + (v[2].setWidth 5).toNat ∧
          (∀ k : Fin 20, t.answer.answerBack[k.val]? = some (v[9 + k.val].setWidth 5)) ∧
          t.answer.access = some [v[29].setWidth 5, v[30].setWidth 5, v[31].setWidth 5, v[32].setWidth 5] ∧
          (t.answer.facility = .disabled ↔
            ∀ k : Fin 4, v[29 + k.val].setWidth 5 = (0 : Code)) ∧
          (∀ g : StationCode, g ∈ t.loader.groups ↔
            (g = ⟨v[3].setWidth 5, v[4].setWidth 5⟩ ∨ g = ⟨v[5].setWidth 5, v[6].setWidth 5⟩ ∨
                g = ⟨v[7].setWidth 5, v[8].setWidth 5⟩) ∧
              g.c1 ≠ 0 ∧ g.c2 ≠ 0 ∧ ¬(g.c1 = 31 ∧ g.c2 = 31) ∧ some g ≠ t.loader.individual) ∧
          t.loader.groups.Nodup ∧
          ((∀ k : Fin 32, v[33 + k.val] = 0) → t.links.table = some defaultLinks ∧ t.links.isDefault = true) ∧
          ((∃ k : Fin 32, v[33 + k.val] ≠ 0) → t.links.isDefault = false ∧
            ∃ l, t.links.table = some l ∧ l.length = 16 ∧
              ∀ k : Fin 16, l[k.val]? =
                some ⟨(v[33 + 2 * k.val] >>> 4).setWidth 4, v[33 + 2 * k.val].setWidth 4, v[34 + 2 * k.val].setWidth 4,
                  v[34 + 2 * k.val].getLsbD 7⟩)

/-! ### Samples, REST, breaks and quality -/

/-- The quiet and hold counters and REST after one sample: of a line that is not faulted by the level read, of a
faulted line held at 0. With no timebase no sample is taken. The first mark after REST ends it: the Framer goes from
QUIET to LEAD-WATCH with the run at 1 and no reversal, a Listener AT-REST watches the lead-in, a HOLDING call is in
JUDGING, a fresh yield has seen a sending begin, an answered one ends, and an obligation not started lapses. The REST
element count is the whole elements of Z since recognition, 255 at most. -/
def Obligations.SampleRunsCounters : Prop :=
  (∀ (rxP rxN : Bool) (s : State), s.liu.divisor.isSome = true →
     ∃ t, exec (.sample rxP rxN) s = .next t ∧
       (s.liu.faultIn = true → t.liu.quiet = 0 ∧ t.liu.hold = 0) ∧
       (s.liu.faultIn = false →
         let x : Level := if rxP && !rxN then .p else if rxN && !rxP then .n else .z
         t.liu.quiet = (if x = .z then min 17088 (s.liu.quiet + 1) else 0) ∧
           t.liu.hold =
             (if x = .z then 0 else if x = s.liu.lastLevel then min 512 (s.liu.hold + 1) else 1) ∧
           t.liu.rest = (s.liu.rest && decide (x = .z)) ∧ t.liu.lastLevel = x)) ∧
  (∀ (rxP rxN : Bool) (s : State), s.liu.divisor = none →
     exec (.sample rxP rxN) s = .next s ∧ exec .elementTick s = .next s ∧ s.lineBusy = false) ∧
  (∀ (rxP rxN : Bool) (s : State), s.liu.divisor.isSome = true → s.liu.faultIn = false → s.liu.rest = true →
     s.framer.state = .quiet → rxP ≠ rxN →
     ∃ t, exec (.sample rxP rxN) s = .next t ∧ t.liu.rest = false ∧ t.framer.state = .leadWatch ∧ t.framer.run = 1 ∧
       t.framer.revs = 0 ∧ t.framer.pol = (if rxP then .pos else .neg) ∧ t.framer.prev = (if rxP then .p else .n) ∧
       t.listener =
         (if s.listener.phase = .atRest then { s.listener with phase := .leadWatch } else s.listener) ∧
       t.tracker.call =
         s.tracker.call.map (fun c => if c.state = .holding then { c with state := .judging } else c) ∧
       t.sender.oblig = none ∧
       (∀ j, s.sender.phase = .waitGuard → s.sender.job = some j →
         if j.kind = .answer ∨ j.kind = .deliver then t.sender.phase = .idle ∧ t.sender.job = none
         else t.sender = { s.sender with oblig := none }) ∧
       (s.sender.phase = .yielding → s.sender.yld = .fresh →
         t.sender = { s.sender with oblig := none, yld := .begun }) ∧
       (s.sender.phase = .yielding → s.sender.yld = .answered → t.sender.phase = .idle ∧ t.sender.job = none)) ∧
  (∀ s : State,
     (s.liu.rest = false → s.restCount = 0) ∧ s.restCount ≤ 255 ∧
       ∀ n, s.liu.rest = true → n ≤ 255 → 768 + 64 * n ≤ s.liu.quiet → s.liu.quiet < 768 + 64 * (n + 1) →
         s.restCount = n)

/-- In SENDING, at sample 32 of every element, and at sample 96 of a stop of two elements, a level other than the one
driven stops the sending, and a Sender that was driving enters WATCH-LINE. Any other sample of an element leaves the
sending as it is, one sample further. In OFF and BURST nothing is compared: no sample moves a Sender to WATCH-LINE. -/
def Obligations.EchoMismatchStopsSending : Prop :=
  (∀ (rxP rxN : Bool) (s : State) (e : TxElem), s.liu.divisor.isSome = true → s.liu.faultIn = false →
    s.liu.drive = .sending → s.liu.elem = some e →
    ∃ t, exec (.sample rxP rxN) s = .next t ∧
      (let x : Level := if rxP && !rxN then .p else if rxN && !rxP then .n else .z
       if (s.liu.elemIdx = 32 ∨ (s.liu.elemIdx = 96 ∧ e.len = 128)) ∧ x ≠ e.level then
        t.liu.drive ≠ .sending ∧ t.liu.elem = none ∧ t.liu.elems = [] ∧
          (s.sender.phase ∈ [SenderPhase.lead, .header, .window, .text, .stopping] →
            t.sender.phase = .watchLine ∧ t.sender.stopPhase = s.sender.phase)
      else t.liu.drive = .sending ∧ t.liu.elem = some e ∧ t.liu.elemIdx = s.liu.elemIdx + 1 ∧ t.liu.elems = s.liu.elems)) ∧
  ∀ (rxP rxN : Bool) (s : State), s.liu.divisor.isSome = true → s.liu.drive ≠ .sending → s.sender.phase ≠ .watchLine →
    ∃ t, exec (.sample rxP rxN) s = .next t ∧ t.liu.drive ≠ .sending ∧ t.sender.phase ≠ .watchLine

/-- The Framer in LEAD-WATCH. It recognises a lead-in at the sample on which 704 marks and ten reversals have been
counted, and the Listener then awaits the header; with fewer of either it goes on counting. A Z sample there makes the
Framer, and the Listener that watches with it, UNFRAMED. -/
def Obligations.LeadInRecognised : Prop :=
  ∀ (rxP rxN : Bool) (s : State), s.liu.divisor.isSome = true → s.liu.faultIn = false → s.framer.state = .leadWatch →
    let x : Level := if rxP then .p else .n
    let revs : Nat := s.framer.revs + (if x = s.framer.prev then 0 else 1)
    (rxP ≠ rxN → 703 ≤ s.framer.run → 10 ≤ revs →
      ∃ t, exec (.sample rxP rxN) s = .next t ∧ t.framer.state = .hunt ∧ t.framer.lock.isSome = true ∧
        t.framer.pol = (if rxP then .pos else .neg) ∧ t.quality = s.quality ∧
        (s.listener.phase = .leadWatch → s.liu.rest = false →
          t.listener.phase = .header ∧ t.listener.chars = [] ∧ t.listener.hdr = .pending ∧ t.tracker.belongs = .before ∧
            t.tracker.errs = 0 ∧ t.tracker.maxD = 0 ∧ t.answer.watch = false)) ∧
    (rxP ≠ rxN → s.framer.run < 703 ∨ revs < 10 →
      ∃ t, exec (.sample rxP rxN) s = .next t ∧ t.framer.state = .leadWatch ∧ t.framer.run = s.framer.run + 1 ∧
        t.framer.revs = revs ∧ t.framer.pol = (if rxP then .pos else .neg) ∧ t.framer.prev = x ∧
        t.quality = s.quality ∧ (s.liu.rest = false → t.listener = s.listener)) ∧
    (rxP = rxN →
      ∃ t, exec (.sample rxP rxN) s = .next t ∧ t.framer.state = .unframed ∧ t.quality = s.quality ∧
        (s.listener.phase = .leadWatch → t.listener = { s.listener with phase := .unframed } ∧
          t.tracker.belongs = .outside))

/-- The elements of a character. A mark that falls to Z begins one, with no transition recorded; each later sample but
the stop moves its time on by one, and one whose level differs from that of the sample before is recorded as a
transition. The start is tested at t = 32: a mark there is a false start, which raises one error event and discards the
character. The five data elements are sampled at t = 96, 160, 224, 288 and 352, least significant bit first; a mark of
the polarity of the mark before raises one error event. -/
def Obligations.CharacterElementsSampled : Prop :=
  (∀ (rxP rxN : Bool) (s : State), s.liu.divisor.isSome = true → s.liu.faultIn = false → rxP = rxN →
     s.framer.state = .hunt → s.framer.prev ≠ .z →
     ∃ t, exec (.sample rxP rxN) s = .next t ∧ t.gauge.trans = [] ∧ t.quality = s.quality ∧
       t.framer = { s.framer with state := .assemble, t := 0, code := 0, seenMark := false, prev := .z }) ∧
  (∀ (rxP rxN : Bool) (s : State), s.liu.divisor.isSome = true → s.liu.faultIn = false →
     s.framer.state = .assemble → s.framer.t < 415 → rxP = rxN ∨ s.framer.t ≠ 31 →
     let x : Level := if rxP && !rxN then .p else if rxN && !rxP then .n else .z
     ∃ t, exec (.sample rxP rxN) s = .next t ∧ t.framer.state = .assemble ∧ t.framer.t = s.framer.t + 1 ∧
       t.framer.prev = x ∧ t.framer.seenMark = (s.framer.seenMark || decide (x ≠ .z)) ∧
       t.gauge.trans = if x = s.framer.prev then s.gauge.trans else s.gauge.trans ++ [s.framer.t + 1]) ∧
  (∀ (rxP rxN : Bool) (s : State), s.liu.divisor.isSome = true → s.liu.faultIn = false →
     s.framer.state = .assemble → s.framer.t = 31 →
     ∃ t, exec (.sample rxP rxN) s = .next t ∧
       (rxP = rxN → t.framer = { s.framer with t := 32, prev := .z } ∧ t.quality = s.quality ∧ t.port = s.port) ∧
       (rxP ≠ rxN → t.framer.state = .hunt ∧ t.framer.pol = (if rxP then .pos else .neg) ∧ t.gauge.trans = [] ∧
         t.quality = s.quality.event ∧ t.port.errFlag = true)) ∧
  (∀ (rxP rxN : Bool) (k : Fin 5) (s : State), s.liu.divisor.isSome = true → s.liu.faultIn = false →
     s.framer.state = .assemble → s.framer.t = 64 * (k.val + 1) + 31 →
     ∃ t, exec (.sample rxP rxN) s = .next t ∧ t.framer.state = .assemble ∧ t.framer.t = 64 * (k.val + 1) + 32 ∧
       (rxP = rxN → t.framer.code = s.framer.code ∧ t.framer.pol = s.framer.pol ∧ t.quality = s.quality) ∧
       (rxP ≠ rxN →
         t.framer.code = s.framer.code ||| BitVec.ofNat 5 (2 ^ k.val) ∧
           t.framer.pol = (if rxP then .pos else .neg) ∧
           t.quality = (if s.framer.pol = (if rxP then .pos else .neg) then s.quality.event else s.quality)))

/-- The stop is sampled at t = 416: a mark completes the character; Z after some mark is a framing error; Z with no
mark at all is a quiet character, which vanishes. A character that does not vanish goes to the Listener, here one that
gathers a header, after its error events: one for the framing error or for a mark of the polarity of the mark before,
one more where the distortion D of its transitions reaches the margin M that MARGIN straps; its events and its D join
the figures of the sending. That the error events and D come before the character is the model's choice (log 13), and
so is that the events of a header and of a call that it ends are taken at the step's end (log 21). Its fifth character
completes the header: one that spells a MESSAGE or POLL header is acted on as HeaderOpensCall says of `openingHeader`,
any other kind as it says of `followingHeader`, the Listener then in TEXT; and with any other five characters, one of
them in error too, the sending is an outsider's, and a call in JUDGING has ended by its mark. -/
def Obligations.StopSampledAt416 : Prop :=
  ∀ (rxP rxN : Bool) (s : State), s.liu.divisor.isSome = true → s.liu.faultIn = false → s.liu.rest = false →
    s.framer.state = .assemble → s.framer.t = 415 → s.listener.phase = .header → s.listener.hdr = .pending →
    let x : Level := if rxP && !rxN then .p else if rxN && !rxP then .n else .z
    let d : Nat := distortionOf (if x = s.framer.prev then s.gauge.trans else s.gauge.trans ++ [416])
    let n : Nat :=
      (if x = .z ∨ s.framer.pol = (if rxP then .pos else .neg) then 1 else 0) +
        (if 16 + 4 * s.loader.straps.margin.toNat ≤ d then 1 else 0)
    let figures : Tracker :=
      { s.tracker with
        errs := if n = 0 then s.tracker.errs else min 255 (s.tracker.errs + n), maxD := max s.tracker.maxD d }
    let chars : List (Code × Bool) := s.listener.chars ++ [(s.framer.code, decide (rxP = rxN))]
    ∃ t, exec (.sample rxP rxN) s = .next t ∧ t.framer.state = .hunt ∧ t.gauge.trans = [] ∧
      (rxP = rxN → s.framer.seenMark = false →
        t.listener = s.listener ∧ t.quality = s.quality ∧ t.tracker = s.tracker) ∧
      (rxP ≠ rxN ∨ s.framer.seenMark = true →
        t.quality = (if n = 0 then s.quality else if n = 1 then s.quality.event else s.quality.event.event) ∧
          (0 < n → t.port.errFlag = true) ∧
          (s.listener.chars.length < 4 →
            t.listener = { s.listener with chars := chars } ∧ (s.tracker.belongs = .before → t.tracker = figures)) ∧
          (s.listener.chars.length = 4 → s.tracker.belongs = .before →
            ∃ u : State, keeps [.liu, .framer, .gauge, .quality, .sender, .listener, .tracker, .port] s u ∧
              u.tracker = figures ∧ u.sender.job = s.sender.job ∧
              ((∀ e, s.liu.drive = .sending → s.liu.elem = some e → x = e.level) → s.sender.phase ≠ .watchLine →
                u.sender = s.sender) ∧
              u.liu.rest = false ∧
              (∀ o k d', headerSpelled chars o k d' →
                u.listener = { s.listener with chars := chars, hdr := .valid o k d' } ∧
                  (k = .message → keeps [.liu] (State.thenEvents (fun v => v.openingHeader o .message d') u) t) ∧
                  (k = .poll → keeps [.liu] (State.thenEvents (fun v => v.openingHeader o .poll d') u) t) ∧
                  (k ≠ .message → k ≠ .poll →
                    keeps [.liu] (State.thenEvents (fun v => (v.followingHeader o k d').enterText) u) t ∧
                    t.listener = { u.listener with phase := .text, textCase := .low })) ∧
              ((∀ o k d', ¬headerSpelled chars o k d') →
                t.listener = { s.listener with chars := chars, hdr := .invalid } ∧ t.tracker.belongs = .outside ∧
                  ((∀ c, s.tracker.call = some c → c.state ≠ .judging) →
                    t.tracker = { figures with belongs := .outside }) ∧
                  ∀ c, s.tracker.call = some c → c.state = .judging →
                    t.tracker.call = none ∧
                      ∃ r rest, t.tracker.log = r :: rest ∧ r.serial = c.log.serial ∧
                        r.outcome =
                          some
                            (if c.log.kind = .poll ∧ c.deliveries = 0 then .notServed else if c.eom then .complete
                             else .incomplete))))

/-- An error event at the two integrators (R33), and at the ERROR lamp and the latched ERROR flag (R31): the lamp is
lit for 102 ticks from the last event, shows nothing with the SVC latch set, and is dark after a reset; the flag stays
set until a STATUS transaction that showed it ends (R190), or a reset. That SCAN_ROW is the tick that the lamp counts
(log 3), and that the RESET pin changes nothing while power comes up (log 8), are the model's choice. -/
def Obligations.ErrorEventCounts : Prop :=
  (∀ q : Quality,
    q.event.fine =
        (if q.fine.counter < 255 then
          { q.fine with counter := q.fine.counter + 1, age := if q.fine.counter = 0 then 0 else q.fine.age }
        else { q.fine with sticky := true }) ∧
      q.event.coarse =
        (if q.coarse.counter < 63 then
          { q.coarse with counter := q.coarse.counter + 1, age := if q.coarse.counter = 0 then 0 else q.coarse.age }
        else { q.coarse with sticky := true }) ∧
      q.event.errLamp = some 102) ∧
  (∀ s : State,
    s.errorEvent.quality = s.quality.event ∧ s.errorEvent.port.errFlag = true ∧
      (s.errorLamp = true ↔ s.loader.svc = false ∧ s.quality.errLamp ≠ none) ∧
      (s.quality.errLamp = some 0 →
        exec .errorLampTimeout s = .next { s with quality := { s.quality with errLamp := none } }) ∧
      ∀ i, s.loader.phase ≠ .inReset →
        ∃ t, exec (.scanRow i) s = .next t ∧ t.quality.errLamp = s.quality.errLamp.map (· - 1)) ∧
  (∀ (c : Instr) (s t : State), exec c s = .next t →
    let reset : Prop :=
      c = .powerOn ∨ (c = .resetPinAsserted ∧ ¬(s.loader.phase = .inReset ∧ s.loader.cause = .power)) ∨
        (c = .selectHigh ∧ ∃ x, s.port.txn = some x ∧ x.effect = .reset)
    (reset → t.quality.errLamp = none ∧ t.port.errFlag = false) ∧
      (s.port.errFlag = true → ¬reset →
        t.port.errFlag = true ∨
          (c = .selectHigh ∧ ∃ x, s.port.txn = some x ∧ x.effect = .clearError ∧ x.errSince = false)))

/-- REST-RECOGNISED: REST holds from now on, the Framer goes QUIET, the sending that the Listener followed has ended, a
Sender that watched the line has classified its stop, an ACTIVE call is HOLDING and one in JUDGING has ended; and an
answer that is pending is given to the Sender as an obligation, which displaces a MESSAGE or POLL job in WAIT-GUARD
back to its source (R43); that it is given alone where a collection is between two deliveries is the model's choice
(log 54). -/
def Obligations.RestRecognised : Prop :=
  ∀ s : State, s.liu.divisor.isSome = true → s.liu.faultIn = false → 768 ≤ s.liu.quiet → s.liu.rest = false →
    ∃ t, exec .restRecognised s = .next t ∧ t.liu = { s.liu with rest := true } ∧
      (s.framer.state ∈ [FramerState.waitRest, .unframed, .hunt] →
        t.framer.state = .quiet ∧ t.framer.pol = .neg ∧ t.framer.run = 0 ∧ t.framer.revs = 0) ∧
      t.listener.phase = .atRest ∧ t.tracker.belongs = .outside ∧ t.sender.phase ≠ .watchLine ∧
      (∀ c, s.tracker.call = some c → c.state = .active → s.sender.phase ≠ .watchLine →
        ∃ d, t.tracker.call = some d ∧ d.state = .holding ∧ d.log.serial = c.log.serial) ∧
      (∀ c, s.tracker.call = some c → c.state = .judging → t.tracker.call = none) ∧
      ∀ c, s.tracker.call = some c → c.state = .active → s.answer.pending = true → s.sender.phase ≠ .watchLine →
        let a : Job :=
          { kind := .answer, dest := c.log.origin, source := .answerBack, verify := false, first := true
            callSerial := some c.log.serial }
        t.answer.pending = false ∧ (s.sender.phase ≠ .waitGuard → t.sender.oblig = some a) ∧
          ∀ j, s.sender.phase = .waitGuard → s.sender.job = some j → j.kind = .message ∨ j.kind = .poll →
            t.sender.phase = .waitGuard ∧ t.sender.job = some a ∧ t.sender.guard = 4 ∧
              (j.source = .keyboard ∨ (∃ cs, j.source = .access cs) →
                t.kbd = { s.kbd with request := s.kbd.request.map fun q => { q with taken := false } }) ∧
              ∀ i e, j.source = .store (some i) → s.store.entry i = some e → e.state = .sending →
                t.store.entry i = some { e with state := .ready, sending := none }

/-- BREAK-SEEN: event 5 is raised, which belongs to no call, and after it, for a call that is ended, event 3 with that
call's serial; both are taken at the step's end (the model's choice, log 21). The run of 512 is marked as raised, the
Framer waits for REST, the Listener has ended its sending, and an ACTIVE call has ended REFUSED in the two cases that
R65 excepts, else BROKEN, its record at the head of the log. A DELIVER that the collector was taking has ended first:
its printing is over, its entry is CLOSED, BROKEN, and its value has joined the record. That it closes COMPLETE where
its last text code was EOM (log 43), that its close comes before CALL-END's (log 50), and that its value joins a
MESSAGE's too (log 36), are the model's choice. In the role CALLER, whichever job opened the call (the model's reading,
log 10), and where the keyboard's own job ends, the call request ends and the LINE entries are gone; a LINE or COLLECT
set-up goes back to READY, also one begun since an earlier report of the same end (the model's choice, log 64). -/
def Obligations.BreakEndsCall : Prop :=
  ∀ s : State, s.liu.divisor.isSome = true → s.liu.hold = 512 → s.liu.breakRaised = false →
    ∃ t, exec .breakSeen s = .next t ∧ t.liu.breakRaised = true ∧ t.liu.hold = 512 ∧
      t = State.thenEvents State.breakSeen s ∧
      (∃ es, raisedBy State.breakSeen s = ⟨5, none, none⟩ :: es ∧ (∀ e ∈ es, e.code ≠ 5) ∧
        es.filter (fun e => decide (e.code = 3)) =
          (match s.tracker.call with
           | none => []
           | some c => if c.state = .holding then [] else [⟨3, some c.log.serial, none⟩])) ∧
      (s.framer.state ≠ .quiet → t.framer.state = .waitRest) ∧ t.listener.phase = .atRest ∧
      t.tracker.belongs = .outside ∧ t.sender.phase ∉ [SenderPhase.lead, .header, .window, .text, .stopping, .watchLine] ∧
      (∀ j, s.sender.job = some j → keyboardJob j →
        s.sender.phase ∈ [SenderPhase.lead, .header, .window, .text, .stopping, .watchLine] →
        t.kbd = requestEnded s.kbd) ∧
      (∀ d, s.answer.disp = some d → d.deliver = true → s.listener.phase ≠ .atRest →
        t.answer.disp = none ∧
          (∀ c, s.tracker.call = some c → d.state = .direct → t.printer.right ≠ .line c.log.serial) ∧
          ∀ i e, d.entry = some i → s.store.entry i = some e → e.kind = .received → e.state = .opened →
            (∀ g, s.answer.coll = some g → g.entry ≠ some i) →
            (t.store.entry i).map DirEntry.state = some .closed ∧
              (t.store.entry i).map DirEntry.outcome = some (some (if d.eom then .complete else .broken))) ∧
      ∀ c, s.tracker.call = some c → c.state = .active →
        t.tracker.call = none ∧
          (c.log.role = .caller → t.kbd = requestEnded s.kbd) ∧
          (c.log.role ≠ .caller → s.sender.phase = .idle ∨ s.sender.phase = .waitGuard → t.kbd = s.kbd) ∧
          ∃ r rest, t.tracker.log = r :: rest ∧ r.serial = c.log.serial ∧
            let excepted : Prop :=
              (c.log.role = .caller ∧ c.sKind = .message ∧ s.listener.inWindow = true ∧ c.log.dest ≠ .all ∧
                c.log.dest ∉ s.loader.groups) ∨
              ∃ d, s.answer.disp = some d ∧ d.deliver = false ∧ d.refusal = true
            (s.listener.phase ≠ .atRest ∨ (∀ d, s.answer.disp = some d → d.deliver = false) →
              (excepted → r.outcome = some .refused) ∧ (¬excepted → r.outcome = some .broken)) ∧
            ∀ d, s.answer.disp = some d → d.deliver = true → s.listener.phase ≠ .atRest →
              r.disp =
                (match c.log.disp, d.recorded with
                 | a, none => a
                 | none, some v => some v
                 | some a, some v =>
                   some
                     (if a = .partLost ∨ v = .partLost then .partLost
                      else if a = .lost ∧ v = .lost then .lost
                      else if a = .lost ∨ v = .lost then .partLost
                      else if a = v then a
                      else .split))

/-- Steps of one block each: the end of a burst, the clearing of LINE FAULT, the end of LOCAL LOOP, which changes the
latch alone (log 29), the ERROR lamp going dark, a decrement of either integrator, and an element tick, which moves the
divider and the age of both integrators on by one, the age to 8192 at most. -/
def Obligations.LineTimersEnd : Prop :=
  ((∀ s : State, s.liu.drive = .burst → 1024 ≤ s.liu.burstN →
     exec .burstEnd s = .next { s with liu := { s.liu with drive := .off, burstN := 0 } }) ∧
   (∀ s : State, exec .lineFaultCleared s = .next { s with liu := { s.liu with faultIn := false } }) ∧
   (∀ s : State, s.liu.faultLatch = true → s.liu.rest = true → 24 ≤ s.restCount →
     exec .localLoopEnded s = .next { s with liu := { s.liu with faultLatch := false } }) ∧
   (∀ s : State, s.quality.errLamp = some 0 →
     exec .errorLampTimeout s = .next { s with quality := { s.quality with errLamp := none } }) ∧
   (∀ s : State, (if s.quality.fine.flag then 16384 else 4096) ≤ s.quality.fine.divider →
     exec (.integratorDecrement .fine) s =
       .next
         { s with
           quality :=
             { s.quality with
               fine :=
                 { s.quality.fine with
                   divider := 0, counter := s.quality.fine.counter - 1
                   age := if s.quality.fine.counter = 1 then 0 else s.quality.fine.age } } }) ∧
   ∀ s : State, (if s.quality.coarse.flag then 512 else 128) ≤ s.quality.coarse.divider →
     exec (.integratorDecrement .coarse) s =
       .next
         { s with
           quality :=
             { s.quality with
               coarse :=
                 { s.quality.coarse with
                   divider := 0, counter := s.quality.coarse.counter - 1
                   age := if s.quality.coarse.counter = 1 then 0 else s.quality.coarse.age } } }) ∧
  (∀ s : State, s.liu.divisor.isSome = true → 64 ≤ s.liu.tickPhase →
     exec .elementTick s =
       .next
         { s with
           liu := { s.liu with tickPhase := s.liu.tickPhase - 64 }
           quality :=
             { s.quality with
               fine :=
                 { s.quality.fine with
                   divider := s.quality.fine.divider + 1, age := min 8192 (s.quality.fine.age + 1) }
               coarse :=
                 { s.quality.coarse with
                   divider := s.quality.coarse.divider + 1, age := min 8192 (s.quality.coarse.age + 1) } } })

/-- LINE FAULT: the drives go inactive, the latch is set, REST does not hold, and the job, the waiting obligation, the
sending that the Listener followed and the held call are over: the call ABORTED where the job that was sending,
yielding or watching served it, COMPLETE where its sending had ended with the EOM mark, and else INCOMPLETE. Where the
first faulted sample is the stop of a character that had a mark, either of R27's two orders can occur (a free value,
log 31): the stop, sampled as Z, raises its error event, or no event is raised; and the character is discarded in both.
Without a timebase the input is only remembered (log 6). -/
def Obligations.LineFaultEndsAll : Prop :=
  ∀ s : State, s.liu.faultIn = false →
    (s.liu.divisor = none →
      exec .lineFaultAsserted s = .next { s with liu := { s.liu with faultIn := true } }) ∧
    (s.liu.divisor.isSome = true →
      ∃ t, exec .lineFaultAsserted s = .next t ∧ t.liu.faultIn = true ∧ t.liu.faultLatch = true ∧
        t.liu.drive = .off ∧ t.liu.quiet = 0 ∧ t.liu.hold = 0 ∧ t.liu.rest = false ∧ t.localLoop = true ∧
        t.framer.state = .waitRest ∧ t.gauge.trans = [] ∧ t.listener.phase = .atRest ∧ t.listener.chars = [] ∧
        t.sender.phase = .idle ∧ ((s.liu.rest = false → s.sender.oblig = none) → t.sender.oblig = none) ∧
        ((s.sender.phase = .idle → s.sender.job = none) → t.sender.job = none) ∧ t.tracker.call = none ∧
        (∀ c, s.tracker.call = some c →
          let serves : Prop :=
            s.sender.phase ≠ .idle ∧ s.sender.phase ≠ .waitGuard ∧
              ∃ j, s.sender.job = some j ∧ j.callSerial = some c.log.serial
          ∃ r rest, t.tracker.log = r :: rest ∧ r.serial = c.log.serial ∧
            (serves → r.outcome = some .aborted) ∧
            (¬serves →
              r.outcome = some (if c.state ≠ .active ∧ c.eom = true then .complete else .incomplete))) ∧
        (s.framer.state ≠ .assemble ∨ s.framer.t < 415 ∨ s.framer.seenMark = false →
          t.quality = s.quality ∧ t.port = s.port) ∧
        (s.framer.state = .assemble → s.framer.t = 415 → s.framer.seenMark = true →
          if Config.faultedSampleFirst (s.liu.faults + 1) = true then
            t.quality.errLamp = some 102 ∧ t.port.errFlag = true ∧
              (t.quality = s.quality.event ∨ t.quality = s.quality.event.event)
          else t.quality = s.quality ∧ t.port = s.port))

/-- At an age of 8192 an integrator's flag takes the value that its counter calls for, its divider starting again; a
change of LQ raises one QUALITY event, which names the new value. A change to FAIR or POOR within the text of a sending
of the held call makes the call doubtful, and every OPEN RECEIVED entry of it. -/
def Obligations.FlagChangeRaisesQuality : Prop :=
  ∀ s : State,
    s.quality.fine.divider < (if s.quality.fine.flag then 16384 else 4096) →
    s.quality.coarse.divider < (if s.quality.coarse.flag then 512 else 128) →
    (s.quality.fine.age = 8192 ∧ s.quality.fine.flag = decide (s.quality.fine.counter = 0)) ∨
      (s.quality.coarse.age = 8192 ∧ s.quality.coarse.flag = decide (s.quality.coarse.counter = 0)) →
    ∃ t, exec .integratorFlagChange s = .next t ∧ t.quality.errLamp = s.quality.errLamp ∧
      t.quality.fine =
        (if s.quality.fine.age = 8192 ∧ s.quality.fine.flag = decide (s.quality.fine.counter = 0) then
          { s.quality.fine with flag := !s.quality.fine.flag, divider := 0 }
        else s.quality.fine) ∧
      t.quality.coarse =
        (if s.quality.coarse.age = 8192 ∧ s.quality.coarse.flag = decide (s.quality.coarse.counter = 0) then
          { s.quality.coarse with flag := !s.quality.coarse.flag, divider := 0 }
        else s.quality.coarse) ∧
      let q : Quality := { s.quality with fine := t.quality.fine, coarse := t.quality.coarse }
      let doubt : Prop :=
        q.lq ≠ s.quality.lq ∧ q.lq ≠ .good ∧ s.listener.phase = .text ∧ s.tracker.belongs = .joined ∧
          s.tracker.call ≠ none
      (∀ c, doubt → s.tracker.call = some c → doubtMarked c t) ∧
      ∃ u : State,
        t =
          (if q.lq = s.quality.lq then u
           else u.takeEvent ⟨0, none⟩ ⟨match q.lq with | .good => (12 : BitVec 4) | .fair => 10 | .poor => 11, none, none⟩) ∧
        (¬doubt → u = { s with quality := q }) ∧
        ∀ c, doubt → s.tracker.call = some c →
          u =
              { s with
                quality := q
                tracker := { s.tracker with call := some { c with log := { c.log with doubtful := true } } }
                store := { s.store with slots := u.store.slots } } ∧
            ∀ i, u.store.entry i =
              (s.store.entry i).map fun e =>
                if e.kind = .received ∧ e.state = .opened ∧ e.serial = c.log.serial then { e with doubtful := true }
                else e

/-! ### The Sender -/

/-- A sending begins at no other command than GUARD_REACHED, and only with the drives OFF, line functions enabled,
start-up complete and the line-fault latch clear. -/
def Obligations.OnlyGuardStartsSending : Prop :=
  ∀ (c : Instr) (s t : State), exec c s = .next t → s.liu.drive ≠ .sending → t.liu.drive = .sending →
    c = .guardReached ∧ s.liu.drive = .off ∧ s.liu.divisor.isSome = true ∧ s.loader.phase = .complete ∧
      s.liu.faultLatch = false ∧ t.liu.pol = .pos ∧ t.sender.phase = .lead

/-- An empty job slot takes the work of the first source that has some: an obligation at guard 4 or 12, then the
keyboard's call request, then the outbound entry that the store offers while LQ is not POOR: the oldest READY one with
no retry timer running, and none while outbound is held. A MESSAGE or POLL job steps the deferral generator and clears
the courtesy mark. -/
def Obligations.SlotTakesWork : Prop :=
  ∀ s : State, s.loader.phase = .complete → s.loader.config = some .valid → s.loader.straps.rate.toNat ≤ 5 →
    s.liu.faultLatch = false → s.sender.phase = .idle → s.sender.job = none →
    let g : BitVec 15 := (s.sender.gen <<< 1) ||| (if s.sender.gen.getLsbD 14 = s.sender.gen.getLsbD 13 then 0 else 1)
    let contends (j : Job) : Sender :=
      { s.sender with
        phase := .waitGuard, job := some j, gen := g, courtesy := false, owed := [], wru := false, yld := .fresh, pos := 0
        guard := 40 + g.toNat % 16 + (if s.sender.courtesy then 32 else 0) }
    (∀ j, s.sender.oblig = some j →
      exec .slotExamine s =
        .next
          { s with
            sender :=
              { s.sender with
                phase := .waitGuard, job := some j, oblig := none, guard := if j.first then 4 else 12, owed := []
                wru := false, yld := .fresh, pos := 0 } }) ∧
    (∀ r, s.sender.oblig = none → s.kbd.request = some r → r.taken = false →
      exec .slotExamine s =
        .next
          { s with
            kbd := { s.kbd with request := some { r with taken := true } }
            sender :=
              contends
                (match r.access with
                 | none => ⟨.message, r.dest, .keyboard, false, false, none⟩
                 | some cs => ⟨.poll, r.dest, .access cs, false, false, none⟩) }) ∧
    (s.store.offered =
      if s.store.hold = true then none
      else
        s.store.order.find? fun i => (s.store.entry i).any fun e =>
          decide (e.kind = .prepared ∧ e.state = .ready ∧ e.retry = none)) ∧
    (∀ i e, s.sender.oblig = none → s.kbd.request.all CallRequest.taken = true → s.quality.coarse.flag = false →
      s.store.offered = some i → s.store.entry i = some e →
      ∃ t, exec .slotExamine s = .next t ∧ t.kbd = s.kbd ∧
        t.sender =
          contends
            ⟨.message, e.dest, .store (some i),
              s.loader.straps.verify && decide (e.dest ≠ .all ∧ e.dest ∉ s.loader.groups), false, none⟩ ∧
        t.store.entry i = some { e with state := .sending, sending := none } ∧
        ∀ k, k ≠ i → t.store.entry k = s.store.entry k)

/-- At its guard a job's sending starts: the LIU drives the first lead-in element, P, and the Sender enters LEAD. A
refused start sends a MESSAGE or POLL job back to its source, and an obligation has lapsed. -/
def Obligations.GuardStartsSending : Prop :=
  ∀ (s : State) (j : Job), s.liu.rest = true → s.sender.job = some j →
    (s.sender.phase = .waitGuard ∧ s.sender.guard ≤ s.restCount ∧
        (j.first = true → (j.kind = .answer ∨ j.kind = .deliver) → s.restCount ≤ 8) ∨
      s.sender.phase = .yielding ∧ 12 ≤ s.restCount ∧ s.sender.yld ≠ .begun) →
    (s.liu.drive = .off → s.liu.divisor.isSome = true → s.loader.phase = .complete → s.liu.faultLatch = false →
      exec .guardReached s =
        .next
          { s with
            liu :=
              { s.liu with
                drive := .sending, pol := .pos, elems := [], endNow := false, elem := some ⟨.hold, .p, 64⟩, elemIdx := 0 }
            sender :=
              { s.sender with
                phase := .lead, count := 15, owed := [], wru := false, holds := 0, yld := .fresh
                sendKind :=
                  if s.sender.phase = .yielding then .cont
                  else match j.kind with
                    | .message => .message
                    | .poll => .poll
                    | .answer => .answer
                    | .deliver => .deliver } }) ∧
    (s.liu.drive ≠ .off ∨ s.liu.divisor = none ∨ s.loader.phase ≠ .complete ∨ s.liu.faultLatch = true →
      ∃ t, exec .guardReached s = .next t ∧ t.sender.phase = .idle ∧ t.sender.job = none ∧
        (j.source = .keyboard ∨ (∃ cs, j.source = .access cs) → j.kind = .message ∨ j.kind = .poll →
          t.kbd = { s.kbd with request := s.kbd.request.map fun r => { r with taken := false } }) ∧
        (j.kind = .answer → t.kbd = s.kbd ∧ t.store = s.store ∧ t.answer = s.answer ∧ t.tracker = s.tracker) ∧
        (∀ c, j.kind = .deliver → s.answer.coll = some c →
          t.answer.coll = none ∧
            ∀ i e, c.entry = some i → s.store.entry i = some e →
              t.store.entry i = some { e with state := .readyHeld, sending := none }) ∧
        (∀ i e, j.source = .store (some i) → j.kind = .message → s.store.entry i = some e → e.state = .sending →
          t.store.entry i = some { e with state := .ready, sending := none }))

/-- At the end of an element the next one of the same character begins; each mark turns the polarity memory over, a
space does not. A stop has the strapped length. An end that has been handed stops the drive. -/
def Obligations.ElementsFollow : Prop :=
  ∀ (s : State) (e : TxElem), s.liu.drive = .sending → s.liu.elem = some e → e.len ≤ s.liu.elemIdx →
    let p : Polarity := if e.kind = .space then s.liu.pol else (match s.liu.pol with | .pos => .neg | .neg => .pos)
    (s.liu.endNow = true →
      exec .elementEnd s =
        .next
          { s with
            liu := { s.liu with drive := .off, pol := p, elem := none, elemIdx := 0, elems := [], endNow := false } }) ∧
    ∀ k rest, s.liu.endNow = false → s.liu.elems = k :: rest →
      exec .elementEnd s =
        .next
          { s with
            liu :=
              { s.liu with
                pol := p, elemIdx := 0, elems := rest
                elem :=
                  some ⟨k, if k = .space then .z else (match p with | .pos => .p | .neg => .n),
                    if k = .stop then s.liu.stopLen else 64⟩ } }

/-- The lead-in and the reply window: one hold element after another, counted; after the last the header, or the text,
begins. The header is the own code, the kind and the destination, least significant bit first. After its fifth
character the sending goes on only where the station's own Listener took it: a MESSAGE or POLL in the window, another
kind in the text; otherwise it ends, and a MESSAGE or POLL job contends again, another ends ABORTED. A MESSAGE or POLL
was taken where its header gave the role CALLER, another kind where it fitted the held call, and that one heard without
an error mark as another kind was taken where it did so is the model's choice (log 39). The text begins with HS and WRU
under Verify, else with the first code of its source, for the keyboard the LINE entry at the head with the shift that
its case needs, which leaves the type-ahead at once (the model's reading, log 24), or its END-MARKER, a hold element
where the keyboard has none ready, or the close where the source is empty. -/
def Obligations.LeadInWindowAndHeader : Prop :=
  ∀ (s : State) (e : TxElem), s.liu.drive = .sending → s.liu.elem = some e → e.len ≤ s.liu.elemIdx →
    s.liu.endNow = false → s.liu.elems = [] →
    (∀ n, s.sender.count = n + 1 → s.sender.phase = .lead ∨ s.sender.phase = .window →
      ∃ t, exec .elementEnd s = .next t ∧ t.sender = { s.sender with count := n } ∧ t.liu.drive = .sending ∧
        t.liu.elem.map TxElem.kind = some .hold ∧ t.liu.elemIdx = 0) ∧
    (∀ o j, s.sender.count = 0 → s.sender.phase = .lead → s.loader.individual = some o → s.sender.job = some j →
      ∃ t, exec .elementEnd s = .next t ∧ t.sender.phase = .header ∧ t.liu.drive = .sending ∧
        t.sender.owed =
          [o.c2,
            (match s.sender.sendKind with
             | .message => 1
             | .answer => 2
             | .cont => 3
             | .poll => 4
             | .deliver => 5),
            j.dest.c1, j.dest.c2] ∧
        t.liu.elem = some ⟨.space, .z, 64⟩ ∧ t.liu.elems = characterElements o.c1) ∧
    (∀ c rest, s.sender.phase = .header → s.sender.owed = c :: rest →
      ∃ t, exec .elementEnd s = .next t ∧ t.sender = { s.sender with owed := rest } ∧
        t.liu.elem = some ⟨.space, .z, 64⟩ ∧ t.liu.elems = characterElements c) ∧
    let opening : Prop := s.sender.sendKind = .message ∨ s.sender.sendKind = .poll
    let taken : Prop :=
      s.tracker.belongs = .joined ∧
        ∃ c, s.tracker.call = some c ∧ (opening ↔ c.sKind = .message ∨ c.sKind = .poll) ∧
          (opening → c.log.role = .caller ∧ ∃ j, s.sender.job = some j ∧ j.callSerial = some c.log.serial)
    let headerSent : Prop := s.sender.phase = .header ∧ s.sender.owed = []
    let textBegins : Prop := (s.sender.phase = .window ∧ s.sender.count = 0) ∨ (headerSent ∧ taken ∧ ¬opening)
    (headerSent → taken → opening →
      ∃ t, exec .elementEnd s = .next t ∧ t.sender = { s.sender with phase := .window, count := 23 } ∧
        t.liu.drive = .sending ∧ t.liu.elem.map TxElem.kind = some .hold) ∧
    (∀ j, headerSent → ¬taken → s.sender.job = some j →
      ∃ t, exec .elementEnd s = .next t ∧ t.liu.drive = .off ∧
        (opening →
          t.sender.phase = .waitGuard ∧ t.sender.job = some { j with callSerial := none } ∧ 40 ≤ t.sender.guard ∧
            t.sender.guard ≤ 87 ∧ t.kbd = s.kbd ∧ t.tracker = s.tracker) ∧
        (¬opening → t.sender.phase = .idle ∧ t.sender.job = none)) ∧
    ∀ j, textBegins → s.sender.job = some j →
      (opening → s.sender.sendKind = .message → j.verify = true →
        ∃ t, exec .elementEnd s = .next t ∧ t.sender.phase = .text ∧ t.sender.owed = [22] ∧ t.sender.lineCase = .high ∧
          t.liu.elem = some ⟨.space, .z, 64⟩ ∧ t.liu.elems = characterElements 17) ∧
      (j.verify = false ∨ s.sender.sendKind ≠ .message →
        let begun (code : Code) (t : State) : Prop :=
          t.sender.phase = .text ∧ t.sender.owed = [] ∧ t.sender.holds = 0 ∧ t.sender.pos = s.sender.pos + 1 ∧
            t.liu.elem = some ⟨.space, .z, 64⟩ ∧ t.liu.elems = characterElements code
        (∀ code, j.source = .answerBack → s.answer.answerBack[s.sender.pos]? = some code →
          ∃ t, exec .elementEnd s = .next t ∧ begun code t) ∧
        (∀ cs code, j.source = .access cs → cs[s.sender.pos]? = some code →
          ∃ t, exec .elementEnd s = .next t ∧ begun code t) ∧
        (∀ i d, j.source = .store (some i) → s.store.entry i = some d → s.sender.pos < d.len →
          let cell := Memory.read s.store.cells (cellAddr d.chain s.sender.pos)
          ∃ t, exec .elementEnd s = .next t ∧ begun (if cell.good then cell.code else 0) t) ∧
        (∀ n rest, j.source = .keyboard → s.kbd.queue = n :: rest → n.route = .line →
          ∃ t, exec .elementEnd s = .next t ∧
            t.kbd = { s.kbd with queue := rest, locked := s.kbd.locked && decide (24 < rest.length) } ∧
            t.liu.elem = some ⟨.space, .z, 64⟩ ∧ t.sender.holds = 0 ∧
            (∀ code, n.code = some code →
              t.sender.phase = .text ∧
                (if n.kcase = some .high then t.liu.elems = characterElements 17 ∧ t.sender.owed = [code]
                 else t.liu.elems = characterElements code ∧ t.sender.owed = [])) ∧
            (n.code = none →
              t.sender.phase = .stopping ∧ t.liu.elems = characterElements 17 ∧ t.sender.owed = [29])) ∧
        (j.source = .keyboard → (∀ n rest, s.kbd.queue = n :: rest → n.route ≠ .line) →
          ∃ t, exec .elementEnd s = .next t ∧ t.kbd = s.kbd ∧ t.sender.phase = .text ∧ t.sender.lineCase = .low ∧
            t.sender.owed = [] ∧ t.sender.holds = 0 ∧ t.liu.elem.map TxElem.kind = some .hold) ∧
        (j.source = .store none ∨ (∃ i d, j.source = .store (some i) ∧ s.store.entry i = some d ∧ d.len ≤ s.sender.pos) →
          ∃ t, exec .elementEnd s = .next t ∧ t.sender.phase = .stopping ∧ t.sender.owed = [29] ∧
            t.liu.elem = some ⟨.space, .z, 64⟩ ∧ t.liu.elems = characterElements 17))

/-- In TEXT, at the end of a character or of a hold element before the 1500th, a keyboard job hands the LINE entry at
the head of the type-ahead, with the shift that its case needs first; the entry has then left the type-ahead (log 24).
An END-MARKER begins the close, and where no LINE entry stands at the head a hold element is handed and counted. -/
def Obligations.KeyboardTextHanded : Prop :=
  ∀ (s : State) (e : TxElem) (j : Job), s.liu.drive = .sending → s.liu.elem = some e → e.len ≤ s.liu.elemIdx →
    s.liu.endNow = false → s.liu.elems = [] → s.sender.phase = .text → s.sender.owed = [] → s.sender.wru = false →
    s.sender.job = some j → j.source = .keyboard → (e.kind = .hold → s.sender.holds < 1499) →
    (∀ n c rest, s.kbd.queue = n :: rest → n.route = .line → n.code = some c →
      ∃ t first, exec .elementEnd s = .next t ∧ t.kbd.queue = rest ∧ t.sender.phase = .text ∧ t.sender.holds = 0 ∧
        t.liu.elem = some ⟨.space, .z, 64⟩ ∧ t.liu.elems = characterElements first ∧
        (if n.kcase = none ∨ n.kcase = some s.sender.lineCase then first = c ∧ t.sender.owed = []
         else t.sender.owed = [c] ∧ (n.kcase = some .low → first = 14) ∧ (n.kcase = some .high → first = 17)) ∧
        (t.kbd.locked = true ↔ s.kbd.locked = true ∧ 24 < rest.length)) ∧
    (∀ n rest, s.kbd.queue = n :: rest → n.route = .line → n.code = none →
      ∃ t, exec .elementEnd s = .next t ∧ t.kbd.queue = rest ∧ t.sender.phase = .stopping ∧
        t.liu.elem = some ⟨.space, .z, 64⟩ ∧
        (s.sender.lineCase = .low → t.liu.elems = characterElements 17 ∧ t.sender.owed = [29]) ∧
        (s.sender.lineCase = .high → t.liu.elems = characterElements 29 ∧ t.sender.owed = [])) ∧
    ((∀ n rest, s.kbd.queue = n :: rest → n.route ≠ .line) →
      ∃ t, exec .elementEnd s = .next t ∧ t.kbd = s.kbd ∧
        t.sender = { s.sender with holds := if e.kind = .hold then s.sender.holds + 1 else s.sender.holds } ∧
        t.liu.drive = .sending ∧ t.liu.elem.map TxElem.kind = some .hold)

/-- A sending ends after the stop of its EOM, its job SENT; after the last code of the answer-back; and after the stop
of a WRU to an individual destination, when the Sender keeps its job and yields. What SENT does at the job's source:
the keyboard's request is gone, its set-up in OPEN back to READY, its LINE entries removed; an outbound entry stays
SENDING, for CALL-END to settle; an ANSWER has no source; a delivered entry is DELIVERED or deleted, and the collection
is between deliveries, or over where the call has ended, COLLECTED then raised once where one was given; whether its
conditions are tested before or after the blocks of a deleted entry are free is open, and that its actions follow is
the model's choice (log 21). In TEXT the codes owed come first; then the cells of a store entry, one of bad parity as
BLANK, the codes of the answer-back memory, or those of the access code, and after the last the close, but for the
answer-back's. At the 1500th hold element in TEXT the Sender hands nothing, and the LIU sends a hold element of its own
accord; the Sender then closes the text: HS when its tracker is L, then EOM, in place of that element where none of it
has been driven, and else after it (log 32); the call that the job serves is marked timed out. -/
def Obligations.SendingCloses : Prop :=
  (∀ (s : State) (e : TxElem), s.liu.drive = .sending → s.liu.elem = some e → e.len ≤ s.liu.elemIdx →
     s.liu.endNow = false → s.liu.elems = [] →
     (s.sender.phase = .stopping → s.sender.owed = [] →
       ∃ t, exec .elementEnd s = .next t ∧ t.liu.drive ≠ .sending ∧ t.sender.phase = .idle ∧ t.sender.job = none ∧
         t.tracker.call.map (fun c => c.log.serial) = s.tracker.call.map (fun c => c.log.serial) ∧
         ∀ j, s.sender.job = some j →
           (j.kind = .message ∨ j.kind = .poll → j.source = .keyboard ∨ (∃ cs, j.source = .access cs) →
             keeps [.liu, .sender, .kbd] s t ∧
               (let q := s.kbd.queue.filter fun n => decide (n.route ≠ .line)
                t.kbd =
                  { s.kbd with
                    request := none, queue := q, locked := s.kbd.locked && decide (24 < q.length)
                    setup := match s.kbd.setup with | .openLine _ => .ready | u => u })) ∧
           (j.kind = .answer ∨ (j.kind = .message ∧ ∃ i, j.source = .store (some i)) → keeps [.liu, .sender] s t) ∧
           ∀ g, j.kind = .deliver → s.answer.coll = some g →
             ∃ u : State, keeps [.liu, .sender, .store, .answer] s u ∧
               u.answer =
                 { s.answer with
                   coll := if g.phase = .closing then none else some { g with entry := none, phase := .between } } ∧
               (if g.phase = .closing ∧ 1 ≤ g.given then
                 ∃ (d : Int) (k : Nat), (d = 0 ∨ d = (u.store.free.length : Int) - s.store.free.length) ∧
                   (let v := u.takeEvent ⟨d, none⟩ ⟨15, none, none⟩
                    t = { v with links := { v.links with choices := k } })
                else t = u) ∧
               (g.entry = none → u.store = s.store) ∧
               ∀ i e, g.entry = some i → s.store.entry i = some e →
                 u.store.entry i = (if e.kept then some { e with state := .delivered, sending := none } else none) ∧
                   ∀ k, k ≠ i → u.store.entry k = s.store.entry k) ∧
     (∀ c rest, s.sender.phase = .stopping → s.sender.owed = c :: rest →
       ∃ t, exec .elementEnd s = .next t ∧ t.sender.phase = .stopping ∧ t.sender.owed = rest ∧
         t.sender.job = s.sender.job ∧ t.liu.elem = some ⟨.space, .z, 64⟩ ∧ t.liu.elems = characterElements c) ∧
     (∀ j, s.sender.phase = .text → s.sender.wru = false → (e.kind = .hold → s.sender.holds < 1499) →
       s.sender.job = some j →
       let handed (code : Code) (rest : List Code) (t : State) : Prop :=
         t.liu.drive = .sending ∧ t.liu.elem = some ⟨.space, .z, 64⟩ ∧ t.liu.elems = characterElements code ∧
           t.sender.phase = .text ∧ t.sender.owed = rest ∧ t.sender.holds = 0 ∧ t.sender.job = some j ∧ t.kbd = s.kbd ∧
           t.sender.lineCase =
             (if code = 14 then .low else if code = 17 then .high
              else if s.loader.straps.usos ∧ code = 5 then .low else s.sender.lineCase) ∧
           (t.sender.wru = true ↔
             code = 22 ∧ s.sender.lineCase = .high ∧ (s.sender.sendKind = .message ∨ s.sender.sendKind = .cont) ∧
               j.dest ≠ .all ∧ j.dest ∉ s.loader.groups)
       let closed (t : State) : Prop :=
         t.sender.phase = .stopping ∧ t.sender.job = some j ∧ t.liu.elem = some ⟨.space, .z, 64⟩ ∧ t.store = s.store ∧
           (s.sender.lineCase = .low → t.liu.elems = characterElements 17 ∧ t.sender.owed = [29]) ∧
           (s.sender.lineCase = .high → t.liu.elems = characterElements 29 ∧ t.sender.owed = [])
       (∀ c rest, s.sender.owed = c :: rest →
         ∃ t, exec .elementEnd s = .next t ∧ handed c rest t ∧ t.sender.pos = s.sender.pos ∧ t.store = s.store) ∧
       (∀ i d, s.sender.owed = [] → j.source = .store (some i) → s.store.entry i = some d →
         (s.sender.pos < d.len →
           let cell := Memory.read s.store.cells (cellAddr d.chain s.sender.pos)
           ∃ t, exec .elementEnd s = .next t ∧ handed (if cell.good then cell.code else 0) [] t ∧
             t.sender.pos = s.sender.pos + 1 ∧ (cell.good = true → t.store = s.store) ∧
             (cell.good = false →
               t.store.fault = true ∧ t.store.entry i = some { d with damaged := true } ∧
                 t.store.cells = s.store.cells)) ∧
         (d.len ≤ s.sender.pos → ∃ t, exec .elementEnd s = .next t ∧ closed t)) ∧
       (s.sender.owed = [] → j.source = .store none → ∃ t, exec .elementEnd s = .next t ∧ closed t) ∧
       (s.sender.owed = [] → j.source = .answerBack →
         (∀ code, s.answer.answerBack[s.sender.pos]? = some code →
           ∃ t, exec .elementEnd s = .next t ∧ handed code [] t ∧ t.sender.pos = s.sender.pos + 1 ∧ t.store = s.store) ∧
         (s.answer.answerBack.length ≤ s.sender.pos → j.kind = .answer →
           ∃ t, exec .elementEnd s = .next t ∧ t.liu.drive = .off ∧ t.sender.phase = .idle ∧ t.sender.job = none ∧
             keeps [.liu, .sender] s t)) ∧
       ∀ cs, s.sender.owed = [] → j.source = .access cs →
         (∀ code, cs[s.sender.pos]? = some code →
           ∃ t, exec .elementEnd s = .next t ∧ handed code [] t ∧ t.sender.pos = s.sender.pos + 1 ∧ t.store = s.store) ∧
         (cs.length ≤ s.sender.pos → ∃ t, exec .elementEnd s = .next t ∧ closed t)) ∧
     (s.sender.phase = .text → s.sender.wru = true →
       ∃ t, exec .elementEnd s = .next t ∧ t.liu.drive = .off ∧ t.sender.phase = .yielding ∧ t.sender.job = s.sender.job ∧
         t.sender.pos = s.sender.pos ∧ t.kbd = s.kbd) ∧
     (s.sender.phase = .text → s.sender.wru = false → e.kind = .hold → 1499 ≤ s.sender.holds →
       ∃ t, exec .elementEnd s = .next t ∧ t.sender = { s.sender with holds := s.sender.holds + 1 } ∧
         t.liu.drive = .sending ∧ t.liu.elem.map TxElem.kind = some .hold ∧ t.liu.elemIdx = 0 ∧ t.kbd = s.kbd)) ∧
  (∀ s : State, s.liu.drive = .sending → s.sender.phase = .text → 1500 ≤ s.sender.holds →
     ∃ t, exec .holdTimeout s = .next t ∧ t.sender.phase = .stopping ∧ t.sender.holds = 0 ∧ t.liu.drive = .sending ∧
       (s.liu.elemIdx = 0 →
         t.liu.elem = some ⟨.space, .z, 64⟩ ∧
           (s.sender.lineCase = .low → t.liu.elems = characterElements 17 ∧ t.sender.owed = [29]) ∧
           (s.sender.lineCase = .high → t.liu.elems = characterElements 29 ∧ t.sender.owed = [])) ∧
       (s.liu.elemIdx ≠ 0 →
         t.liu = s.liu ∧ t.sender.owed = (match s.sender.lineCase with | .low => [17, 29] | .high => [29])) ∧
       ∀ c j, s.tracker.call = some c → s.sender.job = some j → j.callSerial = some c.log.serial →
         t.tracker.call = some { c with log := { c.log with timedOut := true } })

/-- In YIELD, with no sending begun, the call is marked no answer-back when the count passes 8. An ANSWER that has not
started by count 8 lapses: from the slot, which is then empty, or from where it waited for it. -/
def Obligations.ObligationLapses : Prop :=
  (∀ (s : State) (c : Call), s.liu.rest = true → s.sender.phase = .yielding → s.sender.yld = .fresh → 8 < s.restCount →
     s.tracker.call = some c → c.log.noAnswerBack = false →
     exec .noAnswerBack s =
       .next { s with tracker := { s.tracker with call := some { c with log := { c.log with noAnswerBack := true } } } }) ∧
  (∀ (s : State) (j : Job), s.liu.rest = true → 8 < s.restCount → j.first = true → j.kind = .answer →
     (s.sender.phase = .waitGuard → s.sender.job = some j →
       ∃ t, exec .obligationLapse s = .next t ∧ t.sender.phase = .idle ∧ t.sender.job = none ∧ t.store = s.store ∧
         t.tracker = s.tracker) ∧
     (s.sender.phase ≠ .waitGuard → s.sender.oblig = some j →
       exec .obligationLapse s = .next { s with sender := { s.sender with oblig := none } }))

/-- After 768 samples of a busy line a collision stop is classified: a MESSAGE or POLL stopped in LEAD or HEADER goes
back to WAIT-GUARD with a new guard; any other job, in LEAD or HEADER of another kind or in a later phase, ends
ABORTED, and the call that it served with it. The entry of such a MESSAGE is then settled by ABORTED: by the call that
it was sent in, or where it has no sending serial by the job's end; and the entry of such a DELIVER is READY-HELD
again, and its collection over. The keyboard's request ends, and the LINE entries are gone, where the job was its own
or the call's role CALLER (whichever job opened it: the model's reading, log 10), and nowhere else; a LINE or COLLECT
set-up goes back to READY, also one begun since an earlier report (the model's choice, log 64). That a watch which
outlasts its 768 samples because REST still held is classified as busy once the line has left REST is the model's
choice (log 56). -/
def Obligations.WatchLineClassified : Prop :=
  ∀ s : State, s.sender.phase = .watchLine → 768 ≤ s.sender.watch → s.liu.rest = false → s.liu.quiet < 768 →
    (∀ j, s.sender.job = some j → s.sender.stopPhase = .lead ∨ s.sender.stopPhase = .header →
      s.sender.sendKind = .message ∨ s.sender.sendKind = .poll →
      ∃ t, exec .watchLineEnd s = .next t ∧ t.sender.phase = .waitGuard ∧
        t.sender.job = some { j with callSerial := none } ∧ 40 ≤ t.sender.guard ∧ t.sender.guard ≤ 87 ∧
        t.sender.courtesy = false ∧ t.tracker = s.tracker ∧ t.kbd = s.kbd) ∧
    (s.sender.stopPhase = .window ∨ s.sender.stopPhase = .text ∨ s.sender.stopPhase = .stopping ∨
        (s.sender.stopPhase = .lead ∨ s.sender.stopPhase = .header) ∧
          (s.sender.sendKind = .answer ∨ s.sender.sendKind = .cont ∨ s.sender.sendKind = .deliver) →
      ∃ t, exec .watchLineEnd s = .next t ∧ t.sender.phase = .idle ∧ t.sender.job = none ∧
        (∀ j, s.sender.job = some j →
          let served : Prop :=
            ∃ c, s.tracker.call = some c ∧ j.callSerial = some c.log.serial ∧ c.log.role = .caller
          (keyboardJob j ∨ served → t.kbd = requestEnded s.kbd) ∧ (¬(keyboardJob j ∨ served) → t.kbd = s.kbd)) ∧
        (∀ c j, s.tracker.call = some c → s.sender.job = some j → j.callSerial = some c.log.serial →
          t.tracker.call = none ∧
            ∃ r rest, t.tracker.log = r :: rest ∧ r.serial = c.log.serial ∧ r.outcome = some .aborted) ∧
        (∀ j i e, s.sender.job = some j → j.kind = .message → j.source = .store (some i) → s.store.entry i = some e →
          e.kind = .prepared → e.state = .sending →
          e.sending = none ∨
            (StoreSound s.store ∧
              ∃ c, s.tracker.call = some c ∧ j.callSerial = some c.log.serial ∧ e.sending = some c.log.serial ∧
                ∀ k f, s.store.entry k = some f → f.kind = .prepared → f.state = .sending →
                  f.sending = some c.log.serial → k = i) →
          t.store.entry i = settledEntry e .aborted) ∧
        ∀ j g, s.sender.job = some j → j.kind = .deliver → s.answer.coll = some g → g.phase ≠ .between →
          t.answer.coll = none ∧
            ∀ i e, g.entry = some i → s.store.entry i = some e → e.kind = .held →
              t.store.entry i = some { e with state := .readyHeld, sending := none })

/-! ### The held call and its text -/

/-- What a valid header does at the Call Tracker. A MESSAGE or POLL header that gives a role opens a call: the next
serial, the role, a record with the sending's figures, and the selection event of a MESSAGE; a CALLER's job, and the
entry in SENDING that it sends, are tied to the call. A POLL opens one without a disposition and without an event. A
call still held has ended first, under R63. Which role a valid header gives. An ANSWER, CONTINUE or DELIVER that fits
the call in JUDGING goes on with it, the sending's figures joining the call's; one that does not fit ends a call in
JUDGING and is an outsider's. A DELIVER that fits at the collector opens a message with the spool mark that a
SPOOL-CALL before it left, and decides it at once: no place for it asks for no break. That its record takes the place
of one still open (log 36), that each ANSWER of a call begins the answered-by field anew (log 12), and that a fitting
sending of any kind marks a yield answered (log 11), are the model's choice. -/
def Obligations.HeaderOpensCall : Prop :=
  (∀ (s : State) (o d : StationCode) (role : Role), s.tracker.call = none → s.roleOf o .message d = some role →
     role ≠ .caller → s.answer.disp = none →
     ∃ u : State, s.openingHeader o .message d =
         (match role with
          | .called => u.raise 0 (some (if s.tracker.lastSerial < 9999 then s.tracker.lastSerial + 1 else 1))
          | .member => u.raise (if d = .all then 2 else 1)
              (some (if s.tracker.lastSerial < 9999 then s.tracker.lastSerial + 1 else 1))
          | _ => u) ∧
       u.tracker.lastSerial = (if s.tracker.lastSerial < 9999 then s.tracker.lastSerial + 1 else 1) ∧
       (∃ c, u.tracker.call = some c ∧ c.state = .active ∧ c.log.serial = u.tracker.lastSerial ∧ c.log.role = role ∧
         c.log.origin = o ∧ c.log.dest = d ∧ c.log.outcome = none ∧ c.log.errs = s.tracker.errs ∧
         c.log.maxD = s.tracker.maxD ∧ c.log.chars = 0) ∧
       u.punch.claim = some .notWanted ∧ (∃ r, u.answer.disp = some r ∧ r.state = .awaited) ∧
       u.sender = s.sender ∧ u.store = s.store ∧ u.kbd = s.kbd) ∧
  (∀ (s : State) (o d : StationCode) (j : Job), s.tracker.call = none → s.roleOf o .message d = some .caller →
     s.sender.job = some j →
     let n : Nat := if s.tracker.lastSerial < 9999 then s.tracker.lastSerial + 1 else 1
     let u := s.openingHeader o .message d
     (∃ c, u.tracker.call = some c ∧ c.state = .active ∧ c.log.serial = n ∧ c.log.role = .caller ∧
       c.log.kind = .message ∧ c.log.origin = o ∧ c.log.dest = d ∧ c.log.errs = s.tracker.errs) ∧
       u.sender = { s.sender with job := some { j with callSerial := some n } } ∧ u.links = s.links ∧
       (∃ r, u.answer.disp = some r ∧ r.state = .awaited) ∧ u.punch.claim = some .notWanted ∧ u.kbd = s.kbd ∧
       (∀ i e, j.source = .store (some i) → s.store.entry i = some e →
         u.store.entry i = some (if e.state = .sending then { e with sending := some n } else e)) ∧
       ((∀ i, j.source ≠ .store (some i)) → u.store = s.store)) ∧
  (∀ (s : State) (o d : StationCode) (role : Role), s.tracker.call = none → s.roleOf o .poll d = some role →
     let u := s.openingHeader o .poll d
     (∃ c, u.tracker.call = some c ∧ c.state = .active ∧ c.deliveries = 0 ∧ c.sKind = .poll ∧ c.log.kind = .poll ∧
       c.log.serial = (if s.tracker.lastSerial < 9999 then s.tracker.lastSerial + 1 else 1) ∧ c.log.role = role ∧
       c.log.origin = o ∧ c.log.dest = d ∧ c.log.deliveries = some 0 ∧ c.log.errs = s.tracker.errs ∧
       c.log.maxD = s.tracker.maxD) ∧
       u.answer = { s.answer with pending := false, poll := [] } ∧ u.links = s.links ∧ u.printer = s.printer ∧
       u.kbd = s.kbd ∧
       ∀ j, role = .caller → s.sender.job = some j →
         u.sender.job = some { j with callSerial := u.tracker.call.map fun c => c.log.serial }) ∧
  (∀ (s : State) (o d : StationCode) (k : CallKind) (role : Role) (held : Call), s.tracker.call = some held →
     s.roleOf o k d = some role →
     let u := s.openingHeader o k d
     (∃ c, u.tracker.call = some c ∧ c.state = .active ∧ c.log.role = role ∧ c.log.kind = k ∧
       c.log.serial = (if s.tracker.lastSerial < 9999 then s.tracker.lastSerial + 1 else 1)) ∧
       ∃ r rest, u.tracker.log = r :: rest ∧ r.serial = held.log.serial ∧ r.role = held.log.role ∧
         r.outcome =
           some
             (if held.log.kind = .poll ∧ held.deliveries = 0 then .notServed else if held.eom then .complete
              else .incomplete)) ∧
  (∀ (s : State) (o d : StationCode) (k : SendKind) (c : Call), s.tracker.call = some c →
     k = .answer ∨ k = .cont ∨ k = .deliver →
     let fits : Prop :=
       c.state = .judging ∧ (if k = .cont then o = c.log.origin else o = c.log.dest ∧ d = c.log.origin)
     let u := s.followingHeader o k d
     (¬fits → u.tracker.belongs = .outside ∧
       (c.state ≠ .judging → u = { s with tracker := { s.tracker with belongs := .outside } }) ∧
       (c.state = .judging → u.tracker.call = none ∧
         ∃ r rest, u.tracker.log = r :: rest ∧ r.serial = c.log.serial ∧
           r.outcome =
             some
               (if c.log.kind = .poll ∧ c.deliveries = 0 then .notServed else if c.eom then .complete
                else .incomplete))) ∧
     (fits → u.tracker.belongs = .joined ∧
       u.sender = (if s.sender.phase = .yielding then { s.sender with yld := .answered } else s.sender) ∧
       (∃ b, u.tracker.call = some b ∧ b.state = .active ∧ b.sKind = k ∧ b.eom = c.eom ∧ b.log.serial = c.log.serial ∧
         b.log.role = c.log.role ∧ b.log.errs = min 255 (c.log.errs + s.tracker.errs) ∧
         b.log.maxD = max c.log.maxD s.tracker.maxD ∧
         b.log.answeredBy = (if k = .answer then some [] else c.log.answeredBy) ∧
         b.deliveries = (if k = .deliver then min 8 (c.deliveries + 1) else c.deliveries) ∧
         b.log.deliveries = c.log.deliveries.map fun _ => b.deliveries) ∧
       (k ≠ .deliver ∨ c.log.role ≠ .caller → keeps [.sender, .tracker] s u) ∧
       (k = .deliver → c.log.role = .caller → StoreSound s.store →
         u.liu = s.liu ∧ keeps [.sender, .tracker, .printer, .store, .answer, .links] s u ∧
           ∃ r, u.answer.disp = some r ∧ r.deliver = true ∧ r.origin = o ∧ r.dest = d ∧ r.taken = false ∧
             r.spoolMark = s.answer.callSpool ∧
             r.state =
               (if s.answer.callSpool = false ∧ s.directPossible = true then .direct
                else if s.spoolPossible = true then .spool
                else if s.directPossible = true then .direct
                else .lost) ∧
             (r.state = .direct → r.recorded = some .direct ∧ u.printer.right = .line c.log.serial ∧ u.store = s.store) ∧
             (r.state = .spool → r.recorded = some .spool ∧
               ∃ i e, r.entry = some i ∧ u.store.entry i = some e ∧ e.kind = .received ∧ e.state = .opened ∧
                 e.continued = false ∧ e.serial = c.log.serial ∧ e.origin = o ∧ e.dest = d ∧ e.len = 0) ∧
             (r.state = .lost → r.recorded = some .lost ∧ u.store = s.store ∧ u.printer = s.printer)))) ∧
  (∀ (s : State) (o d : StationCode) (own : StationCode), s.loader.config = some .valid →
     s.loader.individual = some own →
     (∀ k, o = own → s.sender.phase = .header → s.roleOf o k d = some .caller) ∧
     (∀ k, ¬(o = own ∧ s.sender.phase = .header) → d = own → s.roleOf o k d = some .called) ∧
     (¬(o = own ∧ s.sender.phase = .header) → d ≠ own → d = .all ∨ d ∈ s.loader.groups →
       s.roleOf o .message d = some .member ∧ s.roleOf o .poll d = none) ∧
     (∀ k, ¬(o = own ∧ s.sender.phase = .header) → d ≠ own → d ≠ .all → d ∉ s.loader.groups →
       s.roleOf o k d = if s.loader.straps.monitor then some .watcher else none))

/-- The reply window. At the fourth element a CALLED station whose disposition is awaited refuses, by a burst where one
can be sent, when it is unattended and LQ is POOR, or when neither the printer nor the store can take the text. In HUNT
a mark of another level than the sample before, or 64 samples of one mark after the lock point, counts as one element.
A character before the 24th ends the window: the refusal point not yet given comes first, the Listener enters TEXT, an
awaited disposition is decided, and that character is the first of the text. At the 24th element too the Listener
enters TEXT, and an awaited disposition is decided: printing where it is possible, else spooling, else the text is
lost; with the spool mark spooling is tried first. This is the text start of a MESSAGE: a punch that is wanted, or that
the PUNCH switch gives to every call, begins with twelve leader rows where it is free and has tape, and else is MISSED.
Where LQ is not GOOD as the Listener enters TEXT, here or at the header of a sending without a window, the held call is
doubtful, and so is every OPEN RECEIVED entry of it. Printing is possible on a ready printer that owes the print list
nothing, has two places free and drains nothing; spooling with a free slot and block, or an entry to reclaim; a burst
is SENT where one is in progress or may begin. -/
def Obligations.WindowDecides : Prop :=
  (∀ s : State, s.listener.inWindow = true → 4 ≤ s.listener.window → s.listener.refusalGiven = false →
     ∃ t, exec .refusalPoint s = .next t ∧ t.listener = { s.listener with refusalGiven := true } ∧
       (∀ d c, s.tracker.belongs = .joined → s.answer.disp = some d → d.state = .awaited → d.deliver = false →
         s.tracker.call = some c → c.log.role = .called →
         (s.kbd.attended.pos = false ∧ s.quality.coarse.flag = true) ∨
           (s.directPossible = false ∧ s.spoolPossible = false) →
         t.answer.disp = some { d with state := .refused, recorded := some .refused, refusal := s.burstSent } ∧
           t.tracker.call = some { c with log := { c.log with disp := some .refused } } ∧
           (s.burstAllowed = true → t.liu = { s.liu with drive := .burst, burstN := 0 })) ∧
       (s.tracker.belongs ≠ .joined ∨ (∀ c, s.tracker.call = some c → c.log.role ≠ .called) ∨
           (s.kbd.attended.pos = true ∨ s.quality.coarse.flag = false) ∧
             (s.directPossible = true ∨ s.spoolPossible = true) →
         t.answer = s.answer ∧ t.tracker = s.tracker ∧ t.liu = s.liu)) ∧
  (∀ s : State, s.listener.inWindow = true → 24 ≤ s.listener.window → s.listener.refusalGiven = true →
     ∃ t, exec .windowEnd s = .next t ∧ t.listener = { s.listener with phase := .text, textCase := .low } ∧
       (∀ c, s.tracker.belongs = .joined → s.tracker.call = some c →
         (s.quality.fine.flag = true ∨ s.quality.coarse.flag = true → doubtMarked c t) ∧
           (s.quality.fine.flag = false → s.quality.coarse.flag = false →
             t.tracker.call.map (fun b => b.log.doubtful) = some c.log.doubtful)) ∧
       (∀ c, s.tracker.belongs = .joined → s.tracker.call = some c → c.sKind = .message → c.textStarted = false →
         let claims : Prop :=
           s.punch.claim = some .wanted ∧ s.kbd.punchSw.pos ≠ .off ∨
             s.punch.claim = some .notWanted ∧ s.kbd.punchSw.pos = .on
         let free : Prop := s.punch.own = none ∧ s.punch.low.on = false ∧ s.punch.out.on = false
         ∃ b, t.tracker.call = some b ∧ b.textStarted = true ∧ b.log.serial = c.log.serial ∧
           (claims → free → (s.punch.active = none → s.punch.next = none) →
             t.punch.claim = some .made ∧
               b.log.punch = (if c.log.punch = .incomplete then .incomplete else .punched) ∧
               ∃ n, rowsJoined s.punch t.punch ⟨0, .leader, .call c.log.serial⟩ 12 n ∧
                 t.punch.own =
                   some ⟨.call c.log.serial, if n = 12 then .text else .leader, 12 - n, 0, false, 0⟩) ∧
           (claims → ¬free →
             t.punch = { s.punch with claim := some .made } ∧
               b.log.punch = (if c.log.punch = .incomplete then .incomplete else .missed)) ∧
           (¬claims → t.punch = s.punch ∧ b.log.punch = c.log.punch)) ∧
       ∀ d, StoreSound s.store → s.tracker.belongs = .joined → s.answer.disp = some d → d.state = .awaited →
         ∃ d', t.answer.disp = some d' ∧ d'.spoolMark = d.spoolMark ∧
           d'.state =
             (if d.spoolMark = false ∧ s.directPossible = true then .direct
              else if s.spoolPossible = true then .spool
              else if s.directPossible = true then .direct
              else .lost)) ∧
  (∀ (rxP rxN : Bool) (s : State), s.liu.divisor.isSome = true → s.liu.faultIn = false → s.liu.rest = false →
     s.framer.state = .hunt → rxP ≠ rxN → s.listener.inWindow = true →
     let x : Level := if rxP then .p else .n
     ∃ t, exec (.sample rxP rxN) s = .next t ∧ t.framer.state = .hunt ∧ t.framer.prev = x ∧
       t.framer.pol = (if rxP then .pos else .neg) ∧
       t.framer.lock =
         (if x ≠ s.framer.prev then some 0
          else s.framer.lock.map fun n => if 63 ≤ n then n - 63 else n + 1) ∧
       t.listener =
         { s.listener with
           window :=
             if x ≠ s.framer.prev ∨ s.framer.lock.any (fun n => decide (63 ≤ n)) = true then s.listener.window + 1
             else s.listener.window }) ∧
  (∀ (rxP rxN : Bool) (s : State) (c : Call) (d : DispRecord), s.liu.divisor.isSome = true → s.liu.faultIn = false →
     s.liu.rest = false → s.framer.state = .assemble → s.framer.t = 415 → rxP ≠ rxN ∨ s.framer.seenMark = true →
     s.listener.inWindow = true → s.tracker.belongs = .joined → s.tracker.call = some c → c.sKind = .message →
     s.answer.disp = some d → d.state = .awaited → d.deliver = false → StoreSound s.store →
     let code : Code := s.framer.code
     let err : Bool := decide (rxP = rxN)
     let k : Case := if err = false ∧ code = 17 then .high else .low
     let refused : Prop :=
       s.listener.refusalGiven = false ∧ c.log.role = .called ∧
         ((s.kbd.attended.pos = false ∧ s.quality.coarse.flag = true) ∨
           (s.directPossible = false ∧ s.spoolPossible = false))
     ∃ t b r, exec (.sample rxP rxN) s = .next t ∧ t.framer.state = .hunt ∧
       t.listener = { s.listener with phase := .text, textCase := k, refusalGiven := true } ∧
       t.tracker.call = some b ∧ b.log.serial = c.log.serial ∧ b.textStarted = true ∧
       b.log.chars = min 65535 (c.log.chars + 1) ∧ t.answer.disp = some r ∧
       (refused → r.state = .refused ∧ r.recorded = some .refused ∧ t.printer.queue = s.printer.queue) ∧
       (¬refused →
         (d.spoolMark = false → s.directPossible = true → s.printer.queue.length ≤ 61 → s.printer.right = .free →
           r.state = .direct ∧
             t.printer.queue =
               s.printer.queue ++ [.start (.line c.log.serial) false, .code code err k .line]) ∧
         (d.spoolMark = true ∨ s.directPossible = false → s.spoolPossible = true →
           r.state = .spool ∧
             ∃ i e, r.entry = some i ∧ t.store.entry i = some e ∧ e.kind = .received ∧ e.state = .opened ∧ e.len = 1 ∧
               Memory.read t.store.cells (cellAddr e.chain 0) = Cell.make code err) ∧
         (s.directPossible = false → s.spoolPossible = false →
           r.state = .lost ∧ t.printer.queue = s.printer.queue ∧ t.store.cells = s.store.cells))) ∧
  (∀ (s : State) (c : Call), s.tracker.belongs = .joined → s.tracker.call = some c →
     let u : State := s.enterText
     (s.quality.fine.flag = true ∨ s.quality.coarse.flag = true → doubtMarked c u) ∧
       (s.quality.fine.flag = false → s.quality.coarse.flag = false →
         u.tracker.call.map (fun b => b.log.doubtful) = some c.log.doubtful)) ∧
  (∀ s : State,
     (s.directPossible = true ↔
       s.printer.paper.on = false ∧ s.printer.fault.on = false ∧ s.printer.motor ≠ .fault ∧
         (∀ i ∈ s.store.order, ∀ e, s.store.entry i = some e → e.kind = .received → e.print = .printed) ∧
         s.printer.queue.length ≤ 62 ∧ ∀ i, s.printer.right ≠ .drain i) ∧
     (s.spoolPossible = true ↔
       (none ∈ s.store.slots ∧ s.store.free ≠ []) ∨
         ∃ i ∈ s.store.order, ∃ e, s.store.entry i = some e ∧ e.kind = .received ∧ e.state = .closed ∧
           e.print = .printed ∧ e.kept = false) ∧
     (s.burstSent = true ↔
       s.liu.drive = .burst ∨
         (s.liu.drive = .off ∧ s.liu.rest = false ∧ s.liu.divisor.isSome = true ∧ s.loader.phase = .complete ∧
           s.liu.faultLatch = false)))

/-- Any text code of the held call counts. A POLL's is gathered with its error mark at the polled station, the first
seven of them, and goes nowhere else, nor does one of the station's own DELIVER; an ANSWER's joins the answered-by
field, twenty at most; a WRU of a MESSAGE or CONTINUE at a CALLED station makes an answer pending. A text code that is
passed on (a MESSAGE's, an ANSWER's or a CONTINUE's, or a DELIVER's at the collector), sampled at its stop, one with a
framing error, which carries an error mark and moves no case, as well: it counts, its error events and its distortion D
join the call's figures, and it goes to the print queue of a DIRECT message in the case that it leaves, or to the end
of the entry of a SPOOL message, after HS where it is the first of a CONTINUED entry and the last printed code left
high case; a message that is LOST or REFUSED takes none. A full entry grows by the lowest free block, or by one of the
oldest entry that may be reclaimed. One that the printer does not take is the first code of a CONTINUED entry, which
carries the message's origin and destination whichever sending is heard (the model's choice, log 61); where no such
entry can be created, and where a SPOOL entry can take no more cells, the message is lost from there, with the overflow
break of a CALLED station. A BELL code that is passed on raises event 4 with the held call's serial, and goes to its
place before the event's actions (the model's choice, log 23). A punch that the call owns takes a copy, with a
disposition or without one: a TEXT row, or, with its queue full or leader rows still waiting, none from there on, the
punch result INCOMPLETE. A BELL's copy and event 4 are taken in either order: the code as it is passed, or after the
event's actions, dropped then where their PUNCH-STOP has released the punch; which of the two is a free value (log 63).
-/
def Obligations.TextCodeReachesItsPlace : Prop :=
  (∀ (rxP rxN : Bool) (s : State) (c : Call), s.liu.divisor.isSome = true → s.liu.faultIn = false →
    s.liu.rest = false → s.framer.state = .assemble → s.framer.t = 415 →
    rxP ≠ rxN ∨ s.framer.seenMark = true → s.listener.phase = .text → s.tracker.belongs = .joined →
    s.tracker.call = some c →
    let code : Code := s.framer.code
    let err : Bool := decide (rxP = rxN)
    let high : Bool := decide (err = false ∧ s.listener.textCase = .high)
    ∃ t b, exec (.sample rxP rxN) s = .next t ∧ t.tracker.call = some b ∧ b.log.serial = c.log.serial ∧
      b.sKind = c.sKind ∧ b.log.chars = min 65535 (c.log.chars + 1) ∧ b.eom = (high && decide (code = 29)) ∧
      b.log.answeredBy =
        (if c.sKind = .answer then c.log.answeredBy.map fun l => (l ++ [code]).take 20 else c.log.answeredBy) ∧
      t.answer.poll =
        (if c.sKind = .poll ∧ c.log.role = .called then (s.answer.poll ++ [(code, err)]).take 7 else s.answer.poll) ∧
      t.answer.pending =
        (s.answer.pending ||
          (high && decide (code = 22 ∧ c.log.role = .called ∧ (c.sKind = .message ∨ c.sKind = .cont)))) ∧
      (c.sKind = .poll ∨ (c.sKind = .deliver ∧ c.log.role = .called) →
        t.answer.disp = s.answer.disp ∧ t.printer = s.printer ∧ t.punch = s.punch ∧ t.links = s.links ∧
          t.store.cells = s.store.cells)) ∧
  (∀ (rxP rxN : Bool) (s : State) (c : Call) (d : DispRecord), s.liu.divisor.isSome = true → s.liu.faultIn = false →
    s.liu.rest = false → s.framer.state = .assemble → s.framer.t = 415 →
    rxP ≠ rxN ∨ s.framer.seenMark = true → s.listener.phase = .text → s.tracker.belongs = .joined →
    s.tracker.call = some c → c.sKind ≠ .poll → ¬(c.sKind = .deliver ∧ c.log.role = .called) →
    s.answer.disp = some d →
    let x : Level := if rxP && !rxN then .p else if rxN && !rxP then .n else .z
    let code : Code := s.framer.code
    let err : Bool := decide (rxP = rxN)
    let k : Case :=
      if err then s.listener.textCase else if code = 14 then .low else if code = 17 then .high
      else if s.loader.straps.usos ∧ code = 5 then .low else s.listener.textCase
    let bell : Prop := err = false ∧ s.listener.textCase = .high ∧ code = 25
    let eom : Bool := decide (err = false ∧ s.listener.textCase = .high ∧ code = 29)
    let far : Nat := distortionOf (if x = s.framer.prev then s.gauge.trans else s.gauge.trans ++ [416])
    let n : Nat :=
      (if x = .z ∨ s.framer.pol = (if rxP then .pos else .neg) then 1 else 0) +
        (if 16 + 4 * s.loader.straps.margin.toNat ≤ far then 1 else 0)
    let broken (t : State) : Prop :=
      c.log.role = .called → d.deliver = false → s.burstAllowed = true → t.liu.drive = .burst ∧ t.liu.burstN = 0
    let lost (r : DispRecord) : Prop := r.state = .lost ∧ r.recorded = some (if d.taken then .partLost else .lost)
    ∃ t b, exec (.sample rxP rxN) s = .next t ∧ t.framer.state = .hunt ∧ t.listener.textCase = k ∧
      t.tracker.call = some b ∧ b.log.serial = c.log.serial ∧ b.log.chars = min 65535 (c.log.chars + 1) ∧
      b.log.errs = (if n = 0 then c.log.errs else min 255 (c.log.errs + n)) ∧ b.log.maxD = max c.log.maxD far ∧
      (0 < n → b.log.doubtful = true) ∧
      b.eom = eom ∧
      (d.state = .lost ∨ d.state = .refused →
        t.printer.queue = s.printer.queue ∧ t.store.cells = s.store.cells ∧
          t.answer.disp = some { d with eom := eom }) ∧
      (d.state = .direct → s.printer.right = .line c.log.serial → s.printer.queue.length ≤ 62 →
        (s.printer.queue ++ [.code code err k .line]) <+: t.printer.queue ∧
          (¬bell → t.printer.queue = s.printer.queue ++ [.code code err k .line])) ∧
      (d.state = .direct → ¬(s.printer.right = .line c.log.serial ∧ s.printer.queue.length ≤ 62) → StoreSound s.store →
        t.printer.right ≠ .line c.log.serial ∧
          ∃ r, t.answer.disp = some r ∧
            (s.spoolPossible = true →
              r.state = .spool ∧ r.recorded = some .split ∧ r.taken = true ∧
                ∃ i e, r.entry = some i ∧ t.store.entry i = some e ∧ e.kind = .received ∧ e.state = .opened ∧
                  e.continued = true ∧ e.serial = c.log.serial ∧ e.origin = d.origin ∧ e.dest = d.dest ∧
                  e.len = (if d.lastJoin = some .high then 2 else 1) ∧
                  (d.lastJoin = some .high →
                    Memory.read t.store.cells (cellAddr e.chain 0) = Cell.make 17 false) ∧
                  Memory.read t.store.cells (cellAddr e.chain (e.len - 1)) = Cell.make code err) ∧
            (s.spoolPossible = false → lost r ∧ t.store.cells = s.store.cells ∧ broken t)) ∧
      (∀ i e, d.state = .spool → d.entry = some i → s.store.entry i = some e → e.state = .opened →
        d.contFirst = true → d.lastJoin = some .high → e.len + 2 ≤ 256 * e.chain.length →
        Memory.wf s.store.cells = true →
        (t.store.entry i).map DirEntry.len = some (e.len + 2) ∧
          ∀ a, Memory.read t.store.cells a =
            if a = cellAddr e.chain (e.len + 1) then Cell.make code err
            else if a = cellAddr e.chain e.len then Cell.make 17 false
            else Memory.read s.store.cells a) ∧
      (∀ i e, d.state = .spool → d.entry = some i → d.contFirst = false ∨ d.lastJoin ≠ some .high →
        s.store.entry i = some e → e.state = .opened →
        (e.len < 256 * e.chain.length → Memory.wf s.store.cells = true →
          (t.store.entry i).map DirEntry.len = some (e.len + 1) ∧
            (t.store.entry i).map DirEntry.chain = some e.chain ∧
            ∀ a, Memory.read t.store.cells a =
              if a = cellAddr e.chain e.len then Cell.make code err else Memory.read s.store.cells a) ∧
        (e.len = 256 * e.chain.length → e.chain.length < 64 → StoreSound s.store →
          let grown (b : Nat) : Prop :=
            (t.store.entry i).map DirEntry.len = some (e.len + 1) ∧
              (t.store.entry i).map DirEntry.chain = some (e.chain ++ [b]) ∧
              ∀ a, Memory.read t.store.cells a =
                if a = 256 * b then Cell.make code err else Memory.read s.store.cells a
          (∀ b rest, s.store.free = b :: rest → grown b ∧ t.store.free = rest) ∧
          (∀ j f, s.store.free = [] →
            (s.store.order.find? fun j => (s.store.entry j).any fun f =>
              decide (f.kind = .received ∧ f.state = .closed ∧ f.print = .printed ∧ f.kept = false)) = some j →
            s.store.entry j = some f →
            t.store.entry j = none ∧ ∃ b, b ∈ f.chain ∧ (∀ o ∈ f.chain, b ≤ o) ∧ grown b)) ∧
        (e.len = 256 * e.chain.length →
          64 ≤ e.chain.length ∨
            (s.store.free = [] ∧
              ∀ j f, s.store.entry j = some f →
                ¬(f.kind = .received ∧ f.state = .closed ∧ f.print = .printed ∧ f.kept = false)) →
          (∃ r, t.answer.disp = some r ∧ lost r) ∧ broken t ∧ t.store.cells = s.store.cells ∧
            ∃ f, t.store.entry i = some f ∧ f.state = .opened ∧ f.len = e.len ∧ f.chain = e.chain))) ∧
  (∀ (rxP rxN : Bool) (s : State) (c : Call), s.liu.divisor.isSome = true → s.liu.faultIn = false →
    s.liu.rest = false → s.framer.state = .assemble → s.framer.t = 415 →
    rxP ≠ rxN ∨ s.framer.seenMark = true → s.listener.phase = .text → s.tracker.belongs = .joined →
    s.tracker.call = some c → c.sKind ≠ .poll → ¬(c.sKind = .deliver ∧ c.log.role = .called) →
    let code : Code := s.framer.code
    let bell : Prop := rxP ≠ rxN ∧ s.listener.textCase = .high ∧ code = 25
    let f : State → State := fun v => v.sampleLine rxP rxN
    let v : State := f { s with links := { s.links with raised := [] } }
    let events : List Event := (raisedBy f s).filter fun e => decide (e.code ≠ 13)
    ∃ t b g, exec (.sample rxP rxN) s = .next t ∧ t = State.thenEvents f s ∧ t.tracker.call = some b ∧
      v.tracker.call = some g ∧ b.log.serial = c.log.serial ∧ g.log.serial = c.log.serial ∧
      (¬bell → events = [] ∧ codeOffered s.punch t.punch c.log.serial code c.log.punch b.log.punch) ∧
      (bell →
        (events = [⟨4, some c.log.serial, none⟩] ∧
            codeOffered s.punch v.punch c.log.serial code c.log.punch g.log.punch) ∨
          (events = [⟨4, some c.log.serial, some code⟩] ∧ v.punch = s.punch ∧ g.log.punch = c.log.punch ∧
            ∃ w, s.punch.own = some w ∧ w.tag = .call c.log.serial ∧ w.phase ≠ .trailer))) ∧
  ∀ (s : State) (d : Unseen) (ev : BitVec 4) (serial : Option Nat) (code : Code),
    let u : State := s.takeEvent d ⟨ev, serial, none⟩
    let t : State := s.takeEvent d ⟨ev, serial, some code⟩
    (∀ c, u.tracker.call = some c → ev ≠ 3 → serial = some c.log.serial →
      keeps [.tracker, .punch] u t ∧
        ∃ y, t.tracker = { u.tracker with call := some { c with log := { c.log with punch := y } } } ∧
          codeOffered u.punch t.punch c.log.serial code c.log.punch y) ∧
      ((∀ c, u.tracker.call = some c → ev = 3 ∨ serial ≠ some c.log.serial) → t = u)

/-- At the hold limit the held call ends: NOT-SERVED for a POLL without deliveries, COMPLETE with the EOM mark, else
INCOMPLETE. Event 3 is raised once, with the serial of the call that has ended, and taken at the step's end (the
model's choice, log 21). Its record heads the log; no disposition, claim or pending answer is left. An OPEN RECEIVED
entry of the call is closed with the outcome, where no DELIVER record and no collection holds it. An entry that is
SENDING in the call is settled by the outcome, NOT-SERVED as a failed attempt (the model's choice, log 47); the punch's
ownership by the call passes to its trailer, and no other; a collection of the call is over where it is between
deliveries, and closes where one is being given. The settlement of an entry: deleted or SENT at COMPLETE, READY with
its retry timer for the first three failures, FAILED at the fourth, when PREPARED-FAILED is raised. CALL-END at the
store closes every OPEN RECEIVED entry of the call, with its outcome, and touches no other entry. -/
def Obligations.HoldLimitEndsCall : Prop :=
  (∀ (s : State) (c : Call), s.liu.rest = true → 24 ≤ s.restCount → s.tracker.call = some c → c.state = .holding →
     let o : CallOutcome :=
       if c.log.kind = .poll ∧ c.deliveries = 0 then .notServed else if c.eom then .complete else .incomplete
     ∃ t, exec .holdLimitExpired s = .next t ∧ t.tracker.call = none ∧
       (t = State.thenEvents State.endCallR63 s ∧
         (raisedBy State.endCallR63 s).filter (fun e => decide (e.code ≠ 14 ∧ e.code ≠ 15)) =
           [⟨3, some c.log.serial, none⟩]) ∧
       (∃ r rest, t.tracker.log = r :: rest ∧ r.serial = c.log.serial ∧ r.role = c.log.role ∧ r.outcome = some o) ∧
       t.answer.disp = none ∧ t.answer.pending = false ∧ t.punch.claim = none ∧
       t.printer.right ≠ .line c.log.serial ∧
       (c.log.role = .caller → c.eom = true → (c.log.kind = .poll → 0 < c.deliveries) → t.sender.courtesy = true) ∧
       (∀ i e, StoreSound s.store → s.store.entry i = some e → e.kind = .prepared → e.state = .sending →
         e.sending = some c.log.serial →
         (∀ k f, s.store.entry k = some f → f.kind = .prepared → f.state = .sending → f.sending = some c.log.serial →
           k = i) →
         (∀ g, s.answer.coll = some g → g.entry ≠ some i) → t.store.entry i = settledEntry e o) ∧
       (∀ i e, s.store.entry i = some e → e.kind = .received → e.state = .opened → e.serial = c.log.serial →
         (∀ d, s.answer.disp = some d → d.deliver = true → d.entry ≠ some i) →
         (∀ g, s.answer.coll = some g → g.entry ≠ some i) →
         t.store.entry i = some { e with state := .closed, outcome := some o }) ∧
       (∀ w, s.punch.own = some w → w.tag = .call c.log.serial → w.phase ≠ .trailer →
         (s.punch.active = none → s.punch.next = none) →
         ∃ n, rowsJoined s.punch t.punch ⟨0, .trailer, .call c.log.serial⟩ 12 n ∧
           t.punch.own = if n = 12 then none else some { w with phase := .trailer, leader := 0, trailer := 12 - n }) ∧
       ((∀ w, s.punch.own = some w → w.tag = .call c.log.serial → w.phase = .trailer) →
         t.punch = { s.punch with claim := none }) ∧
       ∀ g, s.answer.coll = some g → s.sender.phase ≠ .yielding →
         t.answer.coll =
           if g.serial ≠ c.log.serial ∨ g.phase = .closing then some g
           else if g.phase = .between then none else some { g with phase := .closing }) ∧
  (∀ (s : State) (i : Nat) (e : DirEntry) (o : CallOutcome), s.store.entry i = some e → e.kind = .prepared →
     e.state = .sending →
     ∃ u : State, keeps [.store] s u ∧ u.store.entry i = settledEntry e o ∧ u.store.cells = s.store.cells ∧
       (∀ k, k ≠ i → u.store.entry k = s.store.entry k) ∧
       s.settleEntry i o = if o ≠ .complete ∧ 3 ≤ e.attempts then u.raise 14 none else u) ∧
  (∀ (st : Store) (n : Nat) (o : CallOutcome) (i : Nat),
     (st.callEnd n o).cells = st.cells ∧ (st.callEnd n o).free = st.free ∧
       (st.callEnd n o).entry i =
         (st.entry i).map fun e =>
           if e.kind = .received ∧ e.state = .opened ∧ e.serial = n then
             { e with state := .closed, outcome := some o }
           else e)

/-- A POLL text is judged at the REST-RECOGNISED that ends its sending, at the polled station, where the call's EOM
mark is set and no code gathered carries an error mark. The judgement: nothing unless the facility is OPEN; a text that
is not well formed and a wrong code count, four identical codes and the third wrong attempt lock; the right code begins
the collection, whose first DELIVER, of the oldest READY-HELD entry or of none, is an obligation at guard 4 and
displaces a MESSAGE or POLL job in WAIT-GUARD (R43). At each later REST-RECOGNISED between deliveries the next entry is
given, at guard 12; the collection is over, and COLLECTED raised once where one was given, when no entry is left, eight
have been given, or LQ is POOR. That events are taken at the step's end is the model's choice (log 21). -/
def Obligations.PollIsJudged : Prop :=
  (∀ (s : State) (c : Call), s.liu.divisor.isSome = true → s.liu.faultIn = false → 768 ≤ s.liu.quiet →
    s.liu.rest = false → s.tracker.call = some c → c.state = .active → s.answer.pending = false →
    s.sender.phase ≠ .watchLine → (∀ d, s.answer.disp = some d → d.deliver = false) →
    let polled : Prop := c.sKind = .poll ∧ c.log.kind = .poll ∧ c.log.role = .called
    ∃ t u : State, exec .restRecognised s = .next t ∧ keeps [.liu, .framer, .listener, .tracker, .answer] s u ∧
      u.liu.rest = true ∧ u.tracker.call = some { c with state := .holding } ∧
      (polled →
        u.answer = { s.answer with poll := [] } ∧
          t =
            (if c.eom = true ∧ ∀ x ∈ s.answer.poll, x.2 = false then
              State.thenEvents (fun v => v.judgePoll (s.answer.poll.map Prod.fst)) u
             else u)) ∧
      (¬polled →
        u.answer = s.answer ∧ ((∀ g, s.answer.coll = some g → g.phase ≠ .between) → t = u) ∧
          ∀ g, s.answer.coll = some g → g.phase = .between →
            (s.quality.coarse.flag = true ∨ 8 ≤ g.given ∨ (nextHeld s.store = none ∧ 1 ≤ g.given) →
              ∃ w : State, keeps [.answer] u w ∧ w.answer = { s.answer with coll := none } ∧
                t = (if 1 ≤ g.given then w.takeEvent ⟨0, none⟩ ⟨15, none, none⟩ else w)) ∧
            ∀ i e, s.quality.coarse.flag = false → g.given < 8 → nextHeld s.store = some i →
              s.store.entry i = some e →
              (s.sender.phase = .waitGuard → ∀ j, s.sender.job = some j → j.kind ≠ .deliver) →
              t.store.entry i = some { e with state := .delivering, sending := some g.serial } ∧
                t.answer.coll = some { g with given := g.given + 1, entry := some i, phase := .serving } ∧
                (s.sender.phase ≠ .waitGuard → t.kbd = s.kbd ∧
                  t.sender =
                    { s.sender with
                      oblig :=
                        some ⟨.deliver, c.log.origin, .store (some i), false, decide (g.given = 0),
                          some c.log.serial⟩ }))) ∧
  ∀ (s : State) (text acc : List Code), s.answer.access = some acc →
    (s.answer.facility ≠ .opened → s.judgePoll text = s) ∧
    (s.answer.facility = .opened →
      let wrong : State :=
        { s with
          answer :=
            { s.answer with
              wrong := min 3 (s.answer.wrong + 1), facility := if 3 ≤ s.answer.wrong + 1 then .locked else .opened } }
      ((∀ a b c d, text ≠ [a, b, c, d, 29] ∧ text ≠ [a, b, c, d, 17, 29]) → s.judgePoll text = wrong) ∧
      ∀ a b c d, text = [a, b, c, d, 29] ∨ text = [a, b, c, d, 17, 29] →
        (a = b → b = c → c = d →
          s.judgePoll text = { s with answer := { s.answer with wrong := 3, facility := .locked } }) ∧
        (¬(a = b ∧ b = c ∧ c = d) → acc ≠ [a, b, c, d] → s.judgePoll text = wrong) ∧
        (¬(a = b ∧ b = c ∧ c = d) → acc = [a, b, c, d] →
          (s.judgePoll text).answer.wrong = 0 ∧ (s.judgePoll text).answer.facility = .opened ∧
            (s.quality.coarse.flag = true →
              (s.judgePoll text).answer.coll = none ∧ (s.judgePoll text).sender = s.sender) ∧
            ∀ cl, s.quality.coarse.flag = false → s.tracker.call = some cl →
              (s.sender.phase = .waitGuard → ∀ j, s.sender.job = some j → j.kind ≠ .deliver) →
              ∃ g, (s.judgePoll text).answer.coll = some g ∧ g.serial = cl.log.serial ∧ g.given = 1 ∧
                g.phase = .serving ∧ g.entry = nextHeld s.store ∧
                (∀ i e, nextHeld s.store = some i → s.store.entry i = some e →
                  (s.judgePoll text).store.entry i =
                    some { e with state := .delivering, sending := some cl.log.serial }) ∧
                (s.sender.phase ≠ .waitGuard →
                  ∃ j, (s.judgePoll text).sender.oblig = some j ∧ j.kind = .deliver ∧ j.first = true ∧
                    j.dest = cl.log.origin ∧ j.source = .store (nextHeld s.store)) ∧
                ∀ w, s.sender.phase = .waitGuard → s.sender.job = some w → w.kind = .message ∨ w.kind = .poll →
                  (s.judgePoll text).sender.phase = .waitGuard ∧ (s.judgePoll text).sender.guard = 4 ∧
                    (∃ j, (s.judgePoll text).sender.job = some j ∧ j.kind = .deliver ∧ j.first = true ∧
                      j.dest = cl.log.origin ∧ j.source = .store (nextHeld s.store)) ∧
                    (w.source = .keyboard ∨ (∃ cs, w.source = .access cs) →
                      (s.judgePoll text).kbd =
                        { s.kbd with request := s.kbd.request.map fun q => { q with taken := false } }) ∧
                    ∀ i e, w.source = .store (some i) → s.store.entry i = some e → e.kind = .prepared →
                      e.state = .sending →
                      (s.judgePoll text).store.entry i = some { e with state := .ready, sending := none }))

/-! ### The keyboard -/

/-- A housekeeping tick reads the driven row of the key matrix, with row 7 the function keys and the switches, and the
printer's and the punch's sensing inputs, and runs every count and timer of the block by one. WATCH and its count go on
only while the six conditions of R168 hold, and the scan, which lets ticks pass in WATCH, sees no activity (R88); the
count stops at 61440. It makes no entry. That SCAN_ROW is the whole tick, and nothing while a reset is asserted, is the
model's choice (log 3), and so is the scan that stands as it was at the tick that leaves WATCH (log 26), the run-on
judged with PAPER OUT and FAULT as they were before the reading (log 51), and the keyboard's idle count that stands in
TRAILER (log 53). -/
def Obligations.TickReadsRow : Prop :=
  ∀ (i : TickInputs) (s : State),
    (s.loader.phase = .inReset → exec (.scanRow i) s = .next s) ∧
    (s.loader.phase ≠ .inReset →
      let fnInputs : List Bool := [i.call, i.collect, i.endKey, i.breakKey, i.hereIs, i.cancel]
      let mode : ModePos := match i.mode with | .pos m => m | .fourth => .loc
      let punchPos : PunchPos := match i.punch with | .pos p => p | .fourth => .off
      let debounced (d : Debounce) (x : Bool) : Debounce :=
        if x = d.on then { d with count := 0 } else { d with count := min 4 (d.count + 1) }
      let six : Prop :=
        s.kbd.attended.pos = false ∧ s.tracker.call = none ∧
          (s.printer.motor = .stopped ∨ s.printer.motor = .fault) ∧
          (s.punch.own = none ∧
            ((if s.punch.fresh then i.tapeOut else s.punch.out.on) = true ∨
              (s.punch.queue = [] ∧ s.punch.active = none ∧ s.punch.next = none))) ∧
          s.kbd.queue = [] ∧
          ∀ k ∈ s.store.order, ∀ e, s.store.entry k = some e → e.kind = .prepared → e.state = .ready → e.retry ≠ none
      let moved : Prop :=
        s.kbd.scanWait = 0 ∧
          ((∃ (n : Nat) (k : Key), s.kbd.keys[n]? = some k ∧ n / 8 = s.kbd.row ∧ i.cols.getLsbD (n % 8) ≠ k.down) ∨
            (s.kbd.row = 7 ∧
              ((∃ (n : Nat) (k : Key) (x : Bool), s.kbd.fns[n]? = some k ∧ fnInputs[n]? = some x ∧ x ≠ k.down) ∨
                mode ≠ s.kbd.mode.pos ∨ punchPos ≠ s.kbd.punchSw.pos ∨ i.attended ≠ s.kbd.attended.pos)))
      let idleMotor : Prop :=
        s.printer.active = none ∧
          (s.printer.queue = [] ∧ s.printer.next = none ∧ s.printer.ring = false ∧ s.printer.homing = [] ∧
              s.printer.homeAtSpeed = false ∨
            s.printer.paper.on = true ∨ s.printer.fault.on = true)
      ∃ t, exec (.scanRow i) s = .next t ∧
        (s.kbd.scanWait ≠ 0 →
          t.kbd =
            { s.kbd with
              lockTimer := s.kbd.lockTimer.map (· - 1)
              scanWait := if s.answer.watch = true ∧ t.answer.watch = false then 0 else s.kbd.scanWait - 1 }) ∧
        (s.kbd.scanWait = 0 →
          t.kbd.scanWait = (if t.answer.watch = true then 7 else 0) ∧
          t.kbd.row = (if s.kbd.row = 7 then 0 else s.kbd.row + 1) ∧
            (∀ (n : Nat) (k : Key), s.kbd.keys[n]? = some k →
              t.kbd.keys[n]? =
                some
                  (if n / 8 ≠ s.kbd.row then k
                   else if s.kbd.firstScan then ⟨i.cols.getLsbD (n % 8), 0⟩
                   else if i.cols.getLsbD (n % 8) = k.down then { k with count := 0 }
                   else { k with count := min 4 (k.count + 1) })) ∧
            (s.kbd.row ≠ 7 →
              t.kbd.fns = s.kbd.fns ∧ t.kbd.mode = s.kbd.mode ∧ t.kbd.punchSw = s.kbd.punchSw ∧
                t.kbd.attended = s.kbd.attended ∧ t.kbd.firstScan = s.kbd.firstScan) ∧
            (s.kbd.row = 7 →
              t.kbd.firstScan = false ∧
                (∀ (n : Nat) (k : Key) (x : Bool), s.kbd.fns[n]? = some k → fnInputs[n]? = some x →
                  t.kbd.fns[n]? =
                    some
                      (if s.kbd.firstScan then ⟨x, 0⟩ else if x = k.down then { k with count := 0 }
                       else { k with count := min 4 (k.count + 1) })) ∧
                (s.kbd.firstScan = true →
                  t.kbd.mode = ⟨mode, mode, 0⟩ ∧ t.kbd.punchSw = ⟨punchPos, punchPos, 0⟩ ∧
                    t.kbd.attended = ⟨i.attended, i.attended, 0⟩) ∧
                (s.kbd.firstScan = false →
                  t.kbd.mode =
                      (if mode = s.kbd.mode.pos then { s.kbd.mode with cand := mode, count := 0 }
                       else if mode = s.kbd.mode.cand then { s.kbd.mode with count := min 4 (s.kbd.mode.count + 1) }
                       else { s.kbd.mode with cand := mode, count := 1 }) ∧
                    t.kbd.punchSw =
                      (if punchPos = s.kbd.punchSw.pos then { s.kbd.punchSw with cand := punchPos, count := 0 }
                       else if punchPos = s.kbd.punchSw.cand then
                        { s.kbd.punchSw with count := min 4 (s.kbd.punchSw.count + 1) }
                       else { s.kbd.punchSw with cand := punchPos, count := 1 }) ∧
                    t.kbd.attended =
                      (if i.attended = s.kbd.attended.pos then { s.kbd.attended with cand := i.attended, count := 0 }
                       else if i.attended = s.kbd.attended.cand then
                        { s.kbd.attended with count := min 4 (s.kbd.attended.count + 1) }
                       else { s.kbd.attended with cand := i.attended, count := 1 })))) ∧
        (¬six ∨ moved → t.answer = { s.answer with watch := false, watchCount := 0 }) ∧
        (six → ¬moved →
          t.answer =
            { s.answer with
              watchCount := if s.answer.watch then s.answer.watchCount else min 61440 (s.answer.watchCount + 1) }) ∧
        t.kbd.queue = s.kbd.queue ∧ t.kbd.locked = s.kbd.locked ∧ t.kbd.setup = s.kbd.setup ∧
        t.kbd.request = s.kbd.request ∧ t.kbd.seq = s.kbd.seq ∧
        t.quality = { s.quality with errLamp := s.quality.errLamp.map (· - 1) } ∧
        t.kbd.lockTimer = s.kbd.lockTimer.map (· - 1) ∧
        t.links = { s.links with alarm := s.links.alarm.map (· - 1) } ∧
        (∀ n, t.store.entry n = (s.store.entry n).map fun e => { e with retry := e.retry.map (· - 1) }) ∧
        t.store.cells = s.store.cells ∧ t.store.free = s.store.free ∧
        t.loader =
          { s.loader with
            wait := s.loader.wait - 1
            flash :=
              if s.loader.phase = .complete ∧ 6 ≤ s.loader.straps.rate.toNat then min 512 (s.loader.flash + 1)
              else s.loader.flash } ∧
        (let running : Prop := s.printer.motor = .running
         let started : Prop := running ∨ s.printer.motor = .starting
         let runOn : Nat := if running then (if idleMotor then s.printer.runOn + 1 else 0) else s.printer.runOn
         t.printer =
           { s.printer with
             paper := debounced s.printer.paper i.paperOut, fault := debounced s.printer.fault i.fault
             atSpeed := if started then i.atSpeed else s.printer.atSpeed
             startCount := if s.printer.motor = .starting then s.printer.startCount + 1 else s.printer.startCount
             runOn := runOn
             runOut :=
               if running then decide ((if s.kbd.attended.pos then 92160 else 10240) ≤ runOn) else s.printer.runOut
             stopMet :=
               if started then
                 decide
                   (s.printer.stopReq = true ∧ s.printer.queue = [] ∧ s.printer.active = none ∧ s.printer.next = none ∧
                     s.printer.ring = false)
               else s.printer.stopMet
             localIdle :=
               if s.printer.right = .loc ∧
                   s.kbd.queue.head?.all (fun e => decide ¬(e.route = .loc ∨ s.localLoop = true ∧ e.route = .line)) then
                 min 2048 (s.printer.localIdle + 1)
               else s.printer.localIdle }) ∧
        t.punch =
          { s.punch with
            low := if s.punch.fresh then ⟨i.tapeLow, 0⟩ else debounced s.punch.low i.tapeLow
            out := if s.punch.fresh then ⟨i.tapeOut, 0⟩ else debounced s.punch.out i.tapeOut
            fresh := false, strobe := s.punch.active.isSome
            own := s.punch.own.map fun o =>
              if o.tag = .keyboard ∧ o.phase ≠ .trailer then { o with idle := o.idle + 1 } else o })

/-- A matrix key at its fourth closed reading. Locked out by two other keys, or dead, it is DOWN and does nothing else.
Otherwise it is a destination element or an access code where a sequence awaits one, and else a text key: a LINE, LOCAL
or PREPARE entry, nothing while LOCKED, or a sequence error. What a LOCAL or PREPARE entry offers the punch with PUNCH
ON: the keyboard takes a free punch with tape, leader first, and its code joins with the shift that its case needs,
both or neither, which sets the cut mark; a punch that it does not own takes nothing. A LOCAL entry records the local
case: that of its key, and for a key of no case the one that the code leaves. -/
def Obligations.MatrixKeysAct : Prop :=
  (∀ (p : Punch) (usos : Bool) (c : Code) (kcase : Option Case),
    let q := p.offerKeyboard usos c kcase
    let tape : Prop := p.low.on = false ∧ p.out.on = false
    (p.own = none → ¬tape → q = p) ∧
    (∀ o, p.own = some o → o.tag ≠ .keyboard ∨ o.phase = .trailer → q = p) ∧
    (p.own = none → tape → (p.active = none → p.next = none) →
      ∃ (u : Punch) (n : Nat), rowsJoined p u ⟨0, .leader, .keyboard⟩ 12 n ∧ u.kbCase = .low ∧
        u.own = some ⟨.keyboard, if n = 12 then .text else .leader, 12 - n, 0, false, 0⟩ ∧
        (u.active = none → u.next = none) ∧ u.low = p.low ∧ u.out = p.out ∧ q = u.offerKeyboard usos c kcase) ∧
    ∀ o, p.own = some o → o.tag = .keyboard → o.phase ≠ .trailer → (p.active = none → p.next = none) →
      let moved (x : Case) (y : Code) : Case :=
        if y = 14 then .low else if y = 17 then .high else if usos ∧ y = 5 then .low else x
      let codes : List Code :=
        match kcase with
        | none => [c]
        | some x => if x = p.kbCase then [c] else [(match x with | .low => 14 | .high => 17), c]
      q.kbCase = codes.foldl moved p.kbCase ∧
        (o.cut = true → q = { p with kbCase := q.kbCase, own := some { o with idle := 0 } }) ∧
        (o.cut = false → o.leader ≠ 0 ∨ 32 < p.queue.length + codes.length →
          q = { p with kbCase := q.kbCase, own := some { o with cut := true, idle := 0 } }) ∧
        (o.cut = false → o.phase = .text → o.leader = 0 → p.queue.length + codes.length ≤ 32 →
          punchRows q = punchRows p ++ codes.map (fun y => ⟨y, .text, .keyboard⟩) ∧
            q.own = some { o with idle := 0 })) ∧
  ∀ (p : BitVec 6) (s : State), s.kbd.keys[p.toNat]? = some ⟨false, 4⟩ →
    (∀ q : BitVec 6, q.toNat / 8 = p.toNat / 8 → q.toNat < p.toNat → s.kbd.keys[q.toNat]? ≠ some ⟨false, 4⟩) →
    let k : Kbd := { s.kbd with keys := s.kbd.keys.set p.toNat ⟨true, 0⟩ }
    let c : Code := p.setWidth 5
    let kcase : Option Case :=
      if c ∈ ([0, 5, 9, 14, 17, 18] : List Code) then none else if p.toNat < 32 then some .low else some .high
    let full : Bool := decide (32 ≤ s.kbd.queue.length + 1)
    (2 ≤ s.kbd.othersDown p ∨ p = 61 ∨ p = 62 → exec (.keyDown p) s = .next { s with kbd := k }) ∧
    (s.kbd.othersDown p < 2 → p ≠ 61 → p ≠ 62 →
      (∀ r, s.kbd.setup = .dest1 r → exec (.keyDown p) s = .next { s with kbd := { k with setup := .dest2 r c } }) ∧
      (∀ d1, s.kbd.setup = .dest2 .line d1 →
        exec (.keyDown p) s =
          .next
            { s with
              kbd :=
                if d1 = 0 ∨ c = 0 then { k with seq := true, setup := .ready }
                else { k with request := some ⟨⟨d1, c⟩, none, false⟩, setup := .openLine ⟨d1, c⟩ } }) ∧
      (∀ d1, s.kbd.setup = .dest2 .collect d1 →
        exec (.keyDown p) s =
          .next
            { s with
              kbd :=
                if d1 = 0 ∨ c = 0 then { k with seq := true, setup := .ready }
                else { k with setup := .code ⟨d1, c⟩ [] } }) ∧
      (∀ d1 (n : Nat), s.kbd.setup = .dest2 .prepare d1 → (d1 = 0 ↔ c = 0) → s.store.slots[n]? = some none →
        s.store.free ≠ [] →
        ∃ t j e, exec (.keyDown p) s = .next t ∧ t.kbd = { k with setup := .openPrepare ⟨d1, c⟩ j, prep := some j, prepCase := .low } ∧
          t.store.entry j = some e ∧ s.store.entry j = none ∧ e.state = .opened ∧ e.len = 0 ∧
          e.kind = (if d1 = 0 then .held else .prepared) ∧ e.dest = ⟨d1, c⟩) ∧
      (∀ d1, s.kbd.setup = .dest2 .prepare d1 → (d1 = 0 ↔ c ≠ 0) →
        exec (.keyDown p) s = .next { s with kbd := { k with seq := true, setup := .ready } }) ∧
      (∀ d taken, s.kbd.setup = .code d taken →
        exec (.keyDown p) s =
          .next
            { s with
              kbd :=
                if taken.length < 3 then { k with setup := .code d (taken ++ [c]) }
                else { k with request := some ⟨d, some (taken ++ [c]), false⟩, setup := .ready } }) ∧
      (∀ d, s.kbd.setup = .openLine d → s.kbd.mode.pos = .line → s.localLoop = false →
        exec (.keyDown p) s =
          .next
            { s with
              kbd :=
                if s.kbd.locked then k
                else { k with queue := s.kbd.queue ++ [⟨some c, kcase, .line, none⟩], locked := full } }) ∧
      (s.kbd.mode.pos = .loc →
        s.kbd.setup = .ready ∨ (∃ d, s.kbd.setup = .openLine d) ∨ (∃ d j, s.kbd.setup = .openPrepare d j) →
        (s.kbd.locked = true → exec (.keyDown p) s = .next { s with kbd := k }) ∧
        (s.kbd.locked = false →
          let x : Case :=
            match kcase with
            | some y => y
            | none =>
              if c = 14 then .low else if c = 17 then .high else if s.loader.straps.usos ∧ c = 5 then .low
              else s.kbd.localCase
          exec (.keyDown p) s =
            .next
              { s with
                kbd := { k with queue := s.kbd.queue ++ [⟨some c, kcase, .loc, some x⟩], locked := full, localCase := x }
                punch :=
                  if s.kbd.punchSw.pos = .on then s.punch.offerKeyboard s.loader.straps.usos c kcase else s.punch })) ∧
      (∀ d j, s.kbd.mode.pos = .prepare → s.kbd.setup = .openPrepare d j → s.kbd.locked = false →
        exec (.keyDown p) s =
          .next
            (if s.store.canGrow j 1 then
              { s with
                kbd := { k with queue := s.kbd.queue ++ [⟨some c, kcase, .prepare, none⟩], locked := full }
                punch :=
                  if s.kbd.punchSw.pos = .on then s.punch.offerKeyboard s.loader.straps.usos c kcase else s.punch }
             else { s with kbd := { k with lockTimer := some 512 } })) ∧
      (s.kbd.mode.pos ≠ .loc ∧ s.kbd.setup = .ready ∨ s.kbd.mode.pos = .line ∧ (∃ d j, s.kbd.setup = .openPrepare d j) ∨
          s.kbd.mode.pos = .prepare ∧ (∃ d, s.kbd.setup = .openLine d) →
        exec (.keyDown p) s = .next { s with kbd := { k with seq := true } }))

/-- CALL, COLLECT and END. CALL and COLLECT begin a sequence where the mode, the call request, the open prepared entry
and the set-up allow it, and are sequence errors elsewhere. END makes an END-MARKER in OPEN, nothing while LOCKED, and
breaks off an unfinished sequence with a sequence error. -/
def Obligations.SequenceKeysAct : Prop :=
  ∀ s : State,
    let isOpen : Prop := (∃ d, s.kbd.setup = .openLine d) ∨ ∃ d j, s.kbd.setup = .openPrepare d j
    let k (n : Nat) : Kbd := { s.kbd with fns := s.kbd.fns.set n ⟨true, 0⟩ }
    (s.kbd.fns[0]? = some ⟨false, 4⟩ →
      (s.kbd.mode.pos = .line → s.kbd.request = none → ¬isOpen →
        exec .callKey s = .next { s with kbd := { k 0 with seq := false, setup := .dest1 .line } }) ∧
      (s.kbd.mode.pos = .prepare → s.kbd.prep = none → ¬isOpen →
        exec .callKey s = .next { s with kbd := { k 0 with seq := false, setup := .dest1 .prepare } }) ∧
      (s.kbd.mode.pos = .loc ∨ (s.kbd.mode.pos = .line ∧ s.kbd.request ≠ none) ∨
          (s.kbd.mode.pos = .prepare ∧ s.kbd.prep ≠ none) ∨ isOpen →
        exec .callKey s = .next { s with kbd := { k 0 with seq := true } })) ∧
    (s.kbd.fns[1]? = some ⟨false, 4⟩ →
      (s.kbd.mode.pos = .line → s.kbd.request = none → ¬isOpen →
        exec .collectKey s = .next { s with kbd := { k 1 with seq := false, setup := .dest1 .collect } }) ∧
      (s.kbd.mode.pos ≠ .line ∨ s.kbd.request ≠ none ∨ isOpen →
        exec .collectKey s = .next { s with kbd := { k 1 with seq := true } })) ∧
    (s.kbd.fns[2]? = some ⟨false, 4⟩ →
      (s.kbd.setup = .ready → exec .endKey s = .next { s with kbd := k 2 }) ∧
      (isOpen → s.kbd.locked = true → exec .endKey s = .next { s with kbd := k 2 }) ∧
      (∀ d, s.kbd.setup = .openLine d → s.kbd.locked = false → s.localLoop = false →
        exec .endKey s =
          .next
            { s with
              kbd :=
                { k 2 with
                  queue := s.kbd.queue ++ [⟨none, none, .line, none⟩]
                  locked := decide (32 ≤ s.kbd.queue.length + 1), setup := .ready } }) ∧
      (∀ d j, s.kbd.setup = .openPrepare d j → s.kbd.locked = false → s.kbd.mode.pos ≠ .loc →
        exec .endKey s =
          .next
            { s with
              kbd :=
                { k 2 with
                  queue := s.kbd.queue ++ [⟨none, none, .prepare, none⟩]
                  locked := decide (32 ≤ s.kbd.queue.length + 1), setup := .ready } }) ∧
      (s.kbd.setup ≠ .ready → ¬isOpen → s.kbd.mode.pos ≠ .loc →
        exec .endKey s = .next { s with kbd := { k 2 with seq := true, setup := .ready } }))

/-- HERE-IS makes one raw entry of the mode's route for each code of the answer-back memory, or none: a sequence error
outside the states that take text, which breaks off an unfinished sequence, nothing while LOCKED, with no timer (log
14), and the LOCK timer where twenty places, or in PREPARE twenty cells, are not free: the room that the store answers
for is that of the last block, of the free blocks and of the blocks of entries that may be reclaimed, within 64 blocks.
CANCEL removes the mode's entries, returns the set-up to READY and clears SEQ, and ends the request or the prepared
entry; that a POLL request whose job is sending gets no END-MARKER, since it has no LINE text to close, is the model's
reading of R83 (log 29). -/
def Obligations.HereIsAndCancelAct : Prop :=
  (∀ (st : Store) (i n : Nat),
    let held : List Nat :=
      st.order.map fun j =>
        match st.entry j with
        | some f => if f.kind = .received ∧ f.state = .closed ∧ f.print = .printed ∧ f.kept = false then f.chain.length else 0
        | none => 0
    st.canGrow i n = true ↔
      ∃ e, st.entry i = some e ∧ n ≤ (256 * e.chain.length - e.len) + 256 * st.free.length + 256 * held.sum ∧
        e.len + n ≤ 256 * 64) ∧
  ∀ s : State,
    let k (n : Nat) : Kbd := { s.kbd with fns := s.kbd.fns.set n ⟨true, 0⟩ }
    let route : Route := match s.kbd.mode.pos with | .line => .line | .loc => .loc | .prepare => .prepare
    let kept : List Entry := s.kbd.queue.filter fun e => decide (e.route ≠ route)
    let swept : Kbd :=
      { k 5 with queue := kept, locked := s.kbd.locked && decide (24 < kept.length), setup := .ready, seq := false }
    (s.kbd.fns[4]? = some ⟨false, 4⟩ →
      (s.kbd.setup = .ready ∧ s.kbd.mode.pos ≠ .loc ∨ s.kbd.mode.pos = .line ∧ (∃ d i, s.kbd.setup = .openPrepare d i) ∨
          s.kbd.mode.pos = .prepare ∧ (∃ d, s.kbd.setup = .openLine d) →
        exec .hereIs s = .next { s with kbd := { k 4 with seq := true } }) ∧
      ((∃ r, s.kbd.setup = .dest1 r) ∨ (∃ r d, s.kbd.setup = .dest2 r d) ∨ (∃ d l, s.kbd.setup = .code d l) →
        exec .hereIs s = .next { s with kbd := { k 4 with seq := true, setup := .ready } }) ∧
      (let room : Prop :=
        ∀ d i, s.kbd.mode.pos = .prepare → s.kbd.setup = .openPrepare d i → s.store.canGrow i 20 = true
       s.kbd.mode.pos = .loc ∧
            (s.kbd.setup = .ready ∨ (∃ d, s.kbd.setup = .openLine d) ∨ ∃ d i, s.kbd.setup = .openPrepare d i) ∨
          s.kbd.mode.pos = .line ∧ (∃ d, s.kbd.setup = .openLine d) ∨
          s.kbd.mode.pos = .prepare ∧ (∃ d i, s.kbd.setup = .openPrepare d i) →
        (s.kbd.locked = true → exec .hereIs s = .next { s with kbd := k 4 }) ∧
        (s.kbd.locked = false → 12 < s.kbd.queue.length ∨ ¬room →
          exec .hereIs s = .next { s with kbd := { k 4 with lockTimer := some 512 } }) ∧
        (s.kbd.locked = false → s.kbd.queue.length ≤ 12 → room →
          ∃ t, exec .hereIs s = .next t ∧
            t.kbd.queue.map Entry.code = s.kbd.queue.map Entry.code ++ s.answer.answerBack.map some ∧
            t.kbd.queue.take s.kbd.queue.length = s.kbd.queue ∧
            (∀ e ∈ t.kbd.queue.drop s.kbd.queue.length, e.route = route ∧ e.kcase = none) ∧
            t.kbd.locked = decide (32 ≤ t.kbd.queue.length) ∧ t.kbd.setup = s.kbd.setup ∧ t.kbd.seq = s.kbd.seq))) ∧
    (s.kbd.fns[5]? = some ⟨false, 4⟩ →
      (s.kbd.mode.pos = .loc ∨ s.kbd.mode.pos = .line ∧ s.kbd.request = none →
        exec .cancelKey s = .next { s with kbd := swept }) ∧
      (∀ r, s.kbd.mode.pos = .line → s.kbd.request = some r → r.taken = false →
        exec .cancelKey s = .next { s with kbd := { swept with request := none } }) ∧
      (∀ r j, s.kbd.mode.pos = .line → s.kbd.request = some r → r.taken = true → s.sender.phase = .waitGuard →
        s.sender.job = some j → j.source = .keyboard ∨ (∃ cs, j.source = .access cs) →
        ∃ t, exec .cancelKey s = .next t ∧ t.kbd = { swept with request := none } ∧ t.sender.phase = .idle ∧
          t.sender.job = none) ∧
      (∀ r, s.kbd.mode.pos = .line → s.kbd.request = some r → r.taken = true → r.access = none →
        s.sender.phase ≠ .waitGuard → kept.length < 32 → s.localLoop = false →
        exec .cancelKey s =
          .next
            { s with
              kbd :=
                { swept with
                  queue := kept ++ [⟨none, none, .line, none⟩]
                  locked := swept.locked || decide (32 ≤ kept.length + 1) } }) ∧
      (∀ r, s.kbd.mode.pos = .line → s.kbd.request = some r → r.taken = true →
        r.access ≠ none ∨ 32 ≤ kept.length → s.sender.phase ≠ .waitGuard →
        exec .cancelKey s = .next { s with kbd := swept }) ∧
      (∀ i e, s.kbd.mode.pos = .prepare → s.kbd.prep = some i → s.store.entry i = some e →
        ∃ t, exec .cancelKey s = .next t ∧ t.kbd = { swept with prep := none } ∧ t.store.entry i = none ∧
          (∀ j, j ≠ i → t.store.entry j = s.store.entry j) ∧
          (∀ b, b ∈ t.store.free ↔ b ∈ s.store.free ∨ b ∈ e.chain) ∧ t.store.cells = s.store.cells))

/-- BREAK ends the station's own sending after the element being sent, or its YIELD (with no burst, another station's
sending on the line or not: the model's choice, log 60), and the call that the job serves ends ABORTED, by which an
outbound entry being sent is settled, one without a sending serial by the job's end; the keyboard's request ends, and
the LINE entries are gone, where the job was its own or the call's role CALLER (whichever job opened it: the model's
reading, log 10); a LINE or COLLECT set-up goes back to READY, also one begun since an earlier report (the model's
choice, log 64). Else, with a call held on a line not at REST, it asks for a break burst; else it does nothing. -/
def Obligations.BreakKeyActs : Prop :=
  ∀ s : State, s.kbd.fns[3]? = some ⟨false, 4⟩ →
    let k : Kbd := { s.kbd with fns := s.kbd.fns.set 3 ⟨true, 0⟩ }
    let driving : Prop := s.sender.phase ∈ [SenderPhase.lead, .header, .window, .text, .stopping]
    (driving →
      ∃ t, exec .breakKey s = .next t ∧ t.liu = { s.liu with endNow := true } ∧ t.sender.phase = .idle ∧
        t.sender.job = none ∧
        (∀ j, s.sender.job = some j →
          let served : Prop :=
            ∃ c, s.tracker.call = some c ∧ j.callSerial = some c.log.serial ∧ c.log.role = .caller
          (keyboardJob j ∨ served → t.kbd = requestEnded k) ∧ (¬(keyboardJob j ∨ served) → t.kbd = k)) ∧
        (∀ c j, s.tracker.call = some c → s.sender.job = some j → j.callSerial = some c.log.serial →
          t.tracker.call = none ∧
            ∃ r rest, t.tracker.log = r :: rest ∧ r.serial = c.log.serial ∧ r.outcome = some .aborted) ∧
        ∀ j i e, s.sender.job = some j → j.kind = .message → j.source = .store (some i) → s.store.entry i = some e →
          e.kind = .prepared → e.state = .sending →
          e.sending = none ∨
            (StoreSound s.store ∧
              ∃ c, s.tracker.call = some c ∧ j.callSerial = some c.log.serial ∧ e.sending = some c.log.serial ∧
                ∀ k f, s.store.entry k = some f → f.kind = .prepared → f.state = .sending →
                  f.sending = some c.log.serial → k = i) →
          t.store.entry i = settledEntry e .aborted) ∧
    (∀ c, s.sender.phase = .yielding → s.tracker.call = some c → c.log.role = .caller →
      ∃ t, exec .breakKey s = .next t ∧ t.liu = s.liu ∧ t.sender.phase = .idle ∧ t.sender.job = none ∧
        t.kbd = requestEnded k ∧ t.tracker.call = none ∧
        ∃ r rest, t.tracker.log = r :: rest ∧ r.serial = c.log.serial ∧ r.outcome = some .aborted) ∧
    (¬driving → (s.sender.phase ≠ .yielding ∨ ∀ c, s.tracker.call = some c → c.log.role ≠ .caller) →
      exec .breakKey s =
        .next
          (if s.tracker.call ≠ none ∧ s.liu.rest = false ∧ s.liu.drive = .off ∧ s.liu.divisor ≠ none ∧
              s.loader.phase = .complete ∧ s.liu.faultLatch = false then
            { s with kbd := k, liu := { s.liu with drive := .burst, burstN := 0 } }
          else { s with kbd := k }))

/-- A key's up event and the three switches: a switch that has read one new position four times takes it. MODE drops an
unfinished sequence and releases the keyboard's punch; PUNCH to OFF ends the ownership and empties the queue at once;
ATTENDED changes nothing else. -/
def Obligations.SwitchesTakePositions : Prop :=
  ∀ s : State,
    (∀ p : BitVec 6, s.kbd.keys[p.toNat]? = some ⟨true, 4⟩ →
      exec (.keyUp (.matrix p)) s =
        .next { s with kbd := { s.kbd with keys := s.kbd.keys.set p.toNat ⟨false, 0⟩ } }) ∧
    (∀ f : FnKey, s.kbd.fns[fnIdx f]? = some ⟨true, 4⟩ →
      exec (.keyUp (.fn f)) s = .next { s with kbd := { s.kbd with fns := s.kbd.fns.set (fnIdx f) ⟨false, 0⟩ } }) ∧
    (s.kbd.attended.count = 4 →
      exec .attendedChange s =
        .next { s with kbd := { s.kbd with attended := ⟨s.kbd.attended.cand, s.kbd.attended.cand, 0⟩ } }) ∧
    (s.kbd.mode.count = 4 →
      ∃ t, exec .modeChange s = .next t ∧ t.kbd.mode.pos = s.kbd.mode.cand ∧ t.kbd.mode.count = 0 ∧
        (∀ o, t.punch.own = some o → o.tag = .keyboard → o.phase = .trailer) ∧
        (s.kbd.setup = .ready ∨ (∃ d, s.kbd.setup = .openLine d) →
          t.kbd = { s.kbd with mode := ⟨s.kbd.mode.cand, s.kbd.mode.cand, 0⟩ } ∧ t.store = s.store) ∧
        ((∃ r, s.kbd.setup = .dest1 r) ∨ (∃ r d, s.kbd.setup = .dest2 r d) ∨ (∃ d l, s.kbd.setup = .code d l) →
          t.kbd = { s.kbd with mode := ⟨s.kbd.mode.cand, s.kbd.mode.cand, 0⟩, setup := .ready } ∧ t.store = s.store) ∧
        ∀ d i, s.kbd.setup = .openPrepare d i → s.kbd.prep = some i →
          t.kbd.setup = .ready ∧ t.kbd.seq = true ∧ t.kbd.prep = none ∧ t.store.entry i = none ∧
            t.kbd.queue = s.kbd.queue.filter fun e => decide (e.route ≠ .prepare)) ∧
    (s.kbd.punchSw.count = 4 →
      let k : Kbd := { s.kbd with punchSw := ⟨s.kbd.punchSw.cand, s.kbd.punchSw.cand, 0⟩ }
      (s.kbd.punchSw.cand = .on → exec .punchSwitchChange s = .next { s with kbd := k }) ∧
      (s.kbd.punchSw.cand = .auto → s.kbd.punchSw.pos = .off →
        exec .punchSwitchChange s = .next { s with kbd := k }) ∧
      (s.kbd.punchSw.cand = .auto → s.kbd.punchSw.pos = .on →
        ∃ t, exec .punchSwitchChange s = .next t ∧ t.kbd = k ∧ t.tracker = s.tracker ∧
          ∀ o, t.punch.own = some o → o.tag = .keyboard → o.phase = .trailer) ∧
      (s.kbd.punchSw.cand = .off →
        ∃ t, exec .punchSwitchChange s = .next t ∧ t.kbd = k ∧
          t.punch = { s.punch with own := none, queue := [], next := none } ∧
          ∀ c, s.tracker.call = some c →
            (∃ o, s.punch.own = some o ∧ o.tag = .call c.log.serial ∧ o.phase ≠ .trailer) ∨
              (∃ r, r ∈ s.punch.queue ∧ r.kind = .text ∧ r.tag = .call c.log.serial) →
            t.tracker.call = some { c with log := { c.log with punch := .incomplete } }))

/-- Five counts that have run out: the LOCK timer, the LOCAL idle count, an entry's retry timer, the ALARM count and
the watch count. That seven ticks then pass before WATCH's first row is driven is the model's choice (log 26). -/
def Obligations.CountsRunOut : Prop :=
  ∀ s : State,
    (s.kbd.lockTimer = some 0 → exec .lockTimerExpired s = .next { s with kbd := { s.kbd with lockTimer := none } }) ∧
    (s.printer.right = .loc → 2048 ≤ s.printer.localIdle →
      exec .localIdleTimeout s = .next { s with printer := { s.printer with right := .free } }) ∧
    (∀ (i : BitVec 5) (e : DirEntry), s.store.entry i.toNat = some e → e.kind = .prepared → e.state = .ready →
      e.retry = some 0 →
      ∃ t, exec (.retryTimerExpired i) s = .next t ∧ t.store.entry i.toNat = some { e with retry := none } ∧
        (∀ j, j ≠ i.toNat → t.store.entry j = s.store.entry j) ∧ t.answer.watch = false ∧ t.answer.watchCount = 0) ∧
    (s.links.alarm = some 0 → exec .alarmPulseEnd s = .next { s with links := { s.links with alarm := none } }) ∧
    (s.answer.watch = false → 61440 ≤ s.answer.watchCount →
      exec .watchEntered s =
        .next { s with answer := { s.answer with watch := true }, kbd := { s.kbd with scanWait := 7 } })

/-- The prepare writer takes the PREPARE entry at the head: a code that needs no shift becomes one cell at the end of
the open entry's text, a code whose case differs from the writer's two, the shift first; a full entry grows by the
lowest free block, or by one of the oldest entry that may be reclaimed. Where the store is exhausted, the cells not yet
written are discarded and the LOCK timer starts. An END-MARKER makes the entry READY or READY-HELD. An allocation that
sets STORE-HIGH raises event 13, once, whichever writer asked for it: the spool writer at a decision, at a growth and
at a switch-over, or the prepare writer at a creation and at a growth; one that leaves another free count than 16
raises none. -/
def Obligations.PrepareEntryWritten : Prop :=
  (∀ (s : State) (n : Entry) (rest : List Entry) (i : Nat) (e : DirEntry), s.loader.phase = .complete →
    s.kbd.queue = n :: rest → n.route = .prepare → s.kbd.prep = some i → s.store.entry i = some e →
    (∀ c, n.code = some c → n.kcase = none ∨ n.kcase = some s.kbd.prepCase → e.state = .opened →
      e.len < 256 * e.chain.length → Memory.wf s.store.cells = true →
      ∃ t, exec .prepareEntryTaken s = .next t ∧ t.kbd.queue = rest ∧ t.kbd.prep = some i ∧
        t.store.entry i = some { e with len := e.len + 1 } ∧ (∀ j, j ≠ i → t.store.entry j = s.store.entry j) ∧
        (∀ a, Memory.read t.store.cells a =
          if a = cellAddr e.chain e.len then Cell.make c false else Memory.read s.store.cells a) ∧
        t.store.free = s.store.free ∧
        t.kbd.prepCase =
          (if c = 14 then .low else if c = 17 then .high else if s.loader.straps.usos ∧ c = 5 then .low
           else s.kbd.prepCase)) ∧
    (∀ c x, n.code = some c → n.kcase = some x → x ≠ s.kbd.prepCase → e.state = .opened →
      let shift : Code := match x with | .low => 14 | .high => 17
      let noRoom : Prop :=
        64 ≤ e.chain.length ∨
          (s.store.free = [] ∧
            ∀ j f, s.store.entry j = some f →
              ¬(f.kind = .received ∧ f.state = .closed ∧ f.print = .printed ∧ f.kept = false))
      (e.len + 2 ≤ 256 * e.chain.length → Memory.wf s.store.cells = true →
        ∃ t, exec .prepareEntryTaken s = .next t ∧ t.kbd.queue = rest ∧ t.kbd.prep = some i ∧
          t.kbd.lockTimer = s.kbd.lockTimer ∧
          t.store.entry i = some { e with len := e.len + 2 } ∧ (∀ j, j ≠ i → t.store.entry j = s.store.entry j) ∧
          (∀ a, Memory.read t.store.cells a =
            if a = cellAddr e.chain (e.len + 1) then Cell.make c false
            else if a = cellAddr e.chain e.len then Cell.make shift false
            else Memory.read s.store.cells a) ∧
          t.store.free = s.store.free ∧
          t.kbd.prepCase =
            (if c = 14 then .low else if c = 17 then .high else if s.loader.straps.usos ∧ c = 5 then .low else x)) ∧
      (e.len + 1 = 256 * e.chain.length → noRoom → Memory.wf s.store.cells = true →
        ∃ t, exec .prepareEntryTaken s = .next t ∧ t.kbd.queue = rest ∧ t.kbd.prep = some i ∧
          t.kbd.lockTimer = some 512 ∧ t.kbd.prepCase = x ∧ t.store.entry i = some { e with len := e.len + 1 } ∧
          ∀ a, Memory.read t.store.cells a =
            if a = cellAddr e.chain e.len then Cell.make shift false else Memory.read s.store.cells a)) ∧
    (∀ c, n.code = some c → e.state = .opened → e.len = 256 * e.chain.length → StoreSound s.store →
      let grown (b : Nat) (t : State) : Prop :=
        t.kbd.queue = rest ∧ t.kbd.prep = some i ∧ t.kbd.lockTimer = s.kbd.lockTimer ∧
          t.store.entry i = some { e with len := e.len + 1, chain := e.chain ++ [b] } ∧
          ∀ a, Memory.read t.store.cells a = if a = 256 * b then Cell.make c false else Memory.read s.store.cells a
      (n.kcase = none ∨ n.kcase = some s.kbd.prepCase → e.chain.length < 64 →
        (∀ b more, s.store.free = b :: more →
          ∃ t, exec .prepareEntryTaken s = .next t ∧ grown b t ∧ t.store.free = more ∧
            t.store.high = decide (more.length ≤ 16) ∧ t = State.thenEvents State.takePrepare s ∧
            raisedBy State.takePrepare s = if more.length = 16 then [⟨13, none, none⟩] else []) ∧
        ∀ j f, s.store.free = [] →
          (s.store.order.find? fun j => (s.store.entry j).any fun f =>
            decide (f.kind = .received ∧ f.state = .closed ∧ f.print = .printed ∧ f.kept = false)) = some j →
          s.store.entry j = some f →
          ∃ t b, exec .prepareEntryTaken s = .next t ∧ t.store.entry j = none ∧ b ∈ f.chain ∧ (∀ o ∈ f.chain, b ≤ o) ∧
            grown b t) ∧
      (64 ≤ e.chain.length ∨
          (s.store.free = [] ∧
            ∀ j f, s.store.entry j = some f →
              ¬(f.kind = .received ∧ f.state = .closed ∧ f.print = .printed ∧ f.kept = false)) →
        ∃ t, exec .prepareEntryTaken s = .next t ∧ t.kbd.queue = rest ∧ t.kbd.prep = some i ∧
          t.kbd.lockTimer = some 512 ∧ t.kbd.prepCase = s.kbd.prepCase ∧ t.store = s.store)) ∧
    (n.code = none → e.kind ≠ .received →
      ∃ t, exec .prepareEntryTaken s = .next t ∧ t.kbd.queue = rest ∧ t.kbd.prep = none ∧
        t.store.entry i =
          some
            (if e.kind = .held then { e with state := .readyHeld }
             else { e with state := .ready, attempts := 0, retry := none }) ∧
        t.store.cells = s.store.cells)) ∧
  ∀ u : State, StoreSound u.store →
    (∀ d, highRaisedOnce u (u.trySpool d).1) ∧ (∀ d c err text, highRaisedOnce u (u.spoolCell d c err text)) ∧
      (∀ d c err, highRaisedOnce u (u.printFull d c err)) ∧ highRaisedOnce u u.notReady ∧
      (∀ dest, highRaisedOnce u (u.createPrepared dest)) ∧ ∀ i c, highRaisedOnce u (u.writePrepared i [c])

/-! ### Printing -/

/-- The producers that wait for the enqueue right. LOCAL is granted it with an entry of its own at the head, no entry
waiting in the store and no disposition awaited, and takes entries into the queue; DRAIN is granted it for the head of
the print list of a printer that is ready, with a MESSAGE-START unless it goes on where it stopped; one that resumes at
the print position takes the print case that the cells before it leave, one of bad parity leaving it, and that these
are no reads that mark the entry DAMAGED is the model's choice (log 33). Before start-up is complete neither is granted
(log 15). -/
def Obligations.ProducersAreGranted : Prop :=
  ∀ s : State,
    (∀ n rest, s.loader.phase = .complete → s.printer.right = .free → s.store.printList = [] →
      (∀ d, s.answer.disp = some d → d.state ≠ .awaited) → s.kbd.queue = n :: rest →
      n.route = .loc ∨ s.localLoop = true ∧ n.route = .line →
      exec .localGrant s = .next { s with printer := { s.printer with right := .loc, localIdle := 0 } }) ∧
    (∀ n rest, s.loader.phase = .complete → s.printer.right = .loc → s.printer.queue.length ≤ 62 →
      s.kbd.queue = n :: rest → n.route = .loc ∨ s.localLoop = true ∧ n.route = .line →
      ∃ t, exec .localEntryTaken s = .next t ∧ t.kbd.queue = rest ∧ t.printer.localIdle = 0 ∧ t.printer.right = .loc ∧
        t.printer.column = s.printer.column ∧
        (∀ c, n.code = some c →
          t.kbd.request = s.kbd.request ∧
          t.printer.queue = s.printer.queue ++
            [.code c false (match n.localCase, n.kcase with | some x, _ => x | none, some x => x | none, none => .low)
              .loc]) ∧
        (n.code = none → t.printer.queue = s.printer.queue ∧
          ∀ r, s.kbd.request = some r →
            t.kbd.request = if r.taken = false ∧ r.access = none then none else some r)) ∧
    (s.loader.phase ≠ .complete →
      exec .localGrant s = .next s ∧ exec .localEntryTaken s = .next s ∧ exec .drainGrant s = .next s ∧
        exec .drainRead s = .next s) ∧
    (∀ i rest e, s.loader.phase = .complete → s.printer.right = .free → s.store.printList = i :: rest →
      s.store.entry i = some e → s.printer.paper.on = false → s.printer.fault.on = false →
      s.printer.motor ≠ .fault → s.printer.queue.length ≤ 62 →
      ∃ t, exec .drainGrant s = .next t ∧ t.printer.right = .drain i ∧ t.printer.drain = some i ∧
        t.printer.resume = false ∧
        t.store.entry i = some (if e.print = .waiting then { e with print := .printing } else e) ∧
        (s.printer.drain ≠ some i →
          t.printer.queue = s.printer.queue ++ [.start (.drain i) e.continued] ∧ t.printer.readPos = 0 ∧
            t.printer.pcase = .low) ∧
        (s.printer.drain = some i → s.printer.resume = true →
          t.printer.queue = s.printer.queue ++ [.start (.drain i) false] ∧ t.printer.readPos = e.printPos ∧
            t.printer.pcase =
              (List.range e.printPos).foldl
                (fun (k : Case) off =>
                  let c := Memory.read s.store.cells (cellAddr e.chain off)
                  if c.err = true ∨ c.good = false then k
                  else if c.code = 14 then .low else if c.code = 17 then .high
                  else if s.loader.straps.usos ∧ c.code = 5 then .low else k) .low) ∧
        (s.printer.drain = some i → s.printer.resume = false →
          t.printer.queue = s.printer.queue ∧ t.printer.readPos = s.printer.readPos ∧
            t.printer.pcase = s.printer.pcase))

/-- DRAIN joins the cell at its read position, in the case that the cells before it and the cell itself leave; a cell
of bad parity joins as an error item, and marks its entry DAMAGED. At the end of a CLOSED entry the MESSAGE-END joins;
where every cell is complete by then, the entry is PRINTED at once, one with no text when its MESSAGE-START is done
(log 17). -/
def Obligations.DrainReads : Prop :=
  ∀ (s : State) (i : Nat) (e : DirEntry), s.loader.phase = .complete → s.printer.right = .drain i →
    s.printer.drain = some i → s.printer.endJoined = false → s.store.entry i = some e →
    (s.printer.readPos < e.len → s.printer.queue.length ≤ 62 →
      let c := Memory.read s.store.cells (cellAddr e.chain s.printer.readPos)
      let err : Bool := c.err || !c.good
      let k : Case :=
        if err then s.printer.pcase
        else if c.code = 14 then .low else if c.code = 17 then .high
        else if s.loader.straps.usos ∧ c.code = 5 then .low else s.printer.pcase
      ∃ t, exec .drainRead s = .next t ∧
        t.printer.queue = s.printer.queue ++ [.code c.code err k (.drain s.printer.readPos)] ∧ t.printer.pcase = k ∧
        t.printer.readPos = s.printer.readPos + 1 ∧ t.printer.right = .drain i ∧ t.store.cells = s.store.cells ∧
        (c.good = true → t.store = s.store) ∧
        (c.good = false → t.store.fault = true ∧ t.store.entry i = some { e with damaged := true })) ∧
    (s.printer.readPos = e.len → e.state = .closed → s.printer.queue.length ≤ 63 →
      let pos : Nat :=
        match s.printer.active.bind Stage.cell, s.printer.next.bind Stage.cell with
        | some k, _ => k
        | none, some k => k
        | none, none => s.printer.formedPos
      let done : Prop :=
        pos = e.len ∧
          (0 < e.len ∨
            (∀ j b, PItem.start (.drain j) b ∉ s.printer.queue) ∧ s.printer.active.bind Stage.cell = none ∧
              s.printer.next.bind Stage.cell = none)
      ∃ t, exec .drainRead s = .next t ∧ t.printer.queue = s.printer.queue ++ [.finish (.drain i)] ∧
        t.store.cells = s.store.cells ∧
        (¬done →
          t.printer.endJoined = true ∧ t.printer.drain = some i ∧ t.printer.right = .drain i ∧
            t.store.entry i = some { e with printPos := pos }) ∧
        (done →
          t.printer.drain = none ∧ t.printer.right = .free ∧
            t.store.entry i =
              (if e.kept = true ∨ s.loader.straps.keepPrinted = true then
                some { e with printPos := e.len, print := .printed }
              else none)))

/-- The item at the head forms its commands one at a time: each takes the active stage, where it is issued at once on a
running motor with PAPER OUT clear, or the next one while that is occupied, where it waits; the item leaves with its
last command, or at once when it forms none. A homing left to be formed comes first, PAPER OUT or not; then the
remaining commands of a head item already begun, before the bell of the ring request (the model's choice, log 46); then
that bell; and then the next item. With FAULT asserted, a homing that awaits AT-SPEED, or both stages occupied, nothing
is formed; with PAPER OUT nothing but a homing. That an item that forms no command stays in the queue then too (log
57), and that MOTOR-FAULT by itself bars no forming (log 58), are the model's choice. Before start-up is complete
nothing is formed (log 15). -/
def Obligations.CommandsAreFormed : Prop :=
  ∀ s : State,
    (s.loader.phase ≠ .complete ∨ s.printer.fault.on = true ∨ s.printer.homeAtSpeed = true ∨
        (s.printer.paper.on = true ∧ s.printer.homing = []) ∨ (s.printer.active ≠ none ∧ s.printer.next ≠ none) →
      exec .formCommand s = .next s) ∧
    (s.loader.phase = .complete → s.printer.fault.on = false → s.printer.homeAtSpeed = false →
      s.printer.active = none ∨ s.printer.next = none →
      let formed (c : PCmd) (t : State) : Prop :=
        (s.printer.active = none →
            t.printer.active.map Stage.cmd = some c ∧
              t.printer.active.map Stage.issued =
                some (decide (s.printer.motor = .running ∧ s.printer.paper.on = false))) ∧
          (s.printer.active ≠ none →
            t.printer.active.map Stage.cmd = s.printer.active.map Stage.cmd ∧
              t.printer.active.map Stage.issued = s.printer.active.map Stage.issued ∧
              t.printer.next.map Stage.cmd = some c ∧ t.printer.next.map Stage.issued = some false) ∧
          t.printer.column = s.printer.columnAfter c ∧ keeps [.printer, .store] s t
      (∀ c cs, s.printer.homing = c :: cs →
        ∃ t, exec .formCommand s = .next t ∧ formed c t ∧ t.printer.homing = cs ∧ t.printer.queue = s.printer.queue) ∧
      (s.printer.homing = [] → s.printer.paper.on = false →
        (∀ c cs it rest, s.printer.part = c :: cs → s.printer.queue = it :: rest →
          ∃ t, exec .formCommand s = .next t ∧ formed c t ∧ t.printer.part = cs ∧
            t.printer.queue = if cs = [] then rest else it :: rest) ∧
        (s.printer.part = [] →
          (s.printer.ring = true →
            ∃ t, exec .formCommand s = .next t ∧ formed .bell t ∧ t.printer.ring = false ∧
              t.printer.queue = s.printer.queue) ∧
          (∀ it rest, s.printer.ring = false → s.printer.queue = it :: rest →
            (itemCommands s.printer.column s.printer.width s.loader.straps.anl it = [] →
              ∃ t, exec .formCommand s = .next t ∧ t.printer.queue = rest ∧ t.printer.column = s.printer.column ∧
                t.printer.active.map Stage.cmd = s.printer.active.map Stage.cmd ∧
                t.printer.next.map Stage.cmd = s.printer.next.map Stage.cmd ∧ keeps [.printer, .store] s t) ∧
            ∀ c cs, itemCommands s.printer.column s.printer.width s.loader.straps.anl it = c :: cs →
              ∃ t, exec .formCommand s = .next t ∧ formed c t ∧ t.printer.part = cs ∧
                t.printer.queue = if cs = [] then rest else it :: rest))))

/-- DONE completes the issued command: the next one moves up, and is issued while the motor runs and nothing holds the
printer. A DONE with nothing issued is ignored. The drained entry's print position is the number of its cells before
the oldest command of one that is still in a stage. An entry all of whose cells are complete, its MESSAGE-END joined,
is PRINTED: kept, or deleted; one with no text when its MESSAGE-START is done (log 17). -/
def Obligations.DoneMovesUp : Prop :=
  ∀ s : State,
    (∀ g, s.printer.active = some g → g.issued = true →
      ∃ t, exec .printDone s = .next t ∧ t.printer.active.map Stage.cmd = s.printer.next.map Stage.cmd ∧
        t.printer.next = none ∧ t.printer.queue = s.printer.queue ∧ t.printer.column = s.printer.column ∧
        (s.printer.motor = .running → s.printer.paper.on = false → s.printer.fault.on = false →
          ∀ a, t.printer.active = some a → a.issued = true) ∧
        (∀ i e, s.printer.drain = some i → s.store.entry i = some e →
          (∀ n k, s.printer.next = some n → n.cell = some k → k ≠ e.len →
            t.store.entry i = some { e with printPos := k } ∧ t.printer.drain = some i) ∧
          ((∀ n, s.printer.next = some n → n.cell = none) →
            let done : Prop :=
              s.printer.endJoined = true ∧ s.printer.formedPos = e.len ∧
                (0 < e.len ∨ ∀ j b, PItem.start (.drain j) b ∉ s.printer.queue)
            (¬done → t.store.entry i = some { e with printPos := s.printer.formedPos } ∧ t.printer.drain = some i) ∧
            (done →
              t.printer.drain = none ∧ (∀ j, t.printer.right ≠ .drain j) ∧
                t.store.entry i =
                  (if e.kept = true ∨ s.loader.straps.keepPrinted = true then
                    some { e with printPos := e.len, print := .printed }
                  else none))))) ∧
    ((∀ g, s.printer.active = some g → g.issued = false) → exec .printDone s = .next s)

/-- PAPER OUT and FAULT. Either ends a DRAIN holding and switches a DIRECT message over: to a CONTINUED entry of the
call where one can be created, and else the rest of it is lost, with the overflow break of a CALLED station; the entry
carries the message's origin and destination (in an ANSWER or CONTINUE too: the model's choice, log 61). Paper out
raises event 6, which is taken at the step's end and so after that (the model's choice, log 21, log 22), and takes
nothing from the queue or the stages. Where the switch-over raises event 13 too, either is taken first: event 13 then
finds PAPER OUT still clear, or event 6 the free count as it was. The clearing of PAPER OUT issues the command held,
and then event 7 is taken (the model's choice, log 22). FAULT abandons both stages and sends the drain back to the print position; its clearing forms the
recovery homing at once, PAPER OUT or not, and that one stands for a homing that awaits AT-SPEED too (the model's
choice, log 29). -/
def Obligations.PaperAndFaultHold : Prop :=
  ∀ s : State,
    (s.printer.paper = ⟨false, 4⟩ →
      ∃ t, exec .paperOut s = .next t ∧ t.printer.paper = ⟨true, 0⟩ ∧ s.printer.queue <+: t.printer.queue ∧
        t = State.thenEvents State.paperOut s ∧
        (∃ es, raisedBy State.paperOut s = ⟨6, none, none⟩ :: es ∧ (es = [] ∨ es = [⟨13, none, none⟩])) ∧
        (raisedBy State.paperOut s = [⟨6, none, none⟩, ⟨13, none, none⟩] →
          ∃ u : State, keeps [.liu, .tracker, .printer, .store, .answer, .links] s u ∧ u.printer.paper.on = true ∧
            u.store.free.length = 16 ∧
            let d : Int := 16 - s.store.free.length
            (t = (u.takeEvent ⟨d, none⟩ ⟨6, none, none⟩).takeEvent ⟨0, none⟩ ⟨13, none, none⟩ ∨
              t = (u.takeEvent ⟨0, some false⟩ ⟨13, none, none⟩).takeEvent ⟨0, none⟩ ⟨6, none, none⟩)) ∧
        t.printer.active = s.printer.active ∧ t.printer.next = s.printer.next ∧
        t.printer.column = s.printer.column ∧ (∀ i, t.printer.right ≠ .drain i) ∧
        (∀ d, t.answer.disp = some d → d.state ≠ .direct) ∧
        ∀ d c, s.answer.disp = some d → d.state = .direct → s.tracker.call = some c → StoreSound s.store →
          switchedOver s c d t) ∧
    (s.printer.paper = ⟨true, 4⟩ →
      ∃ t, exec .paperBack s = .next t ∧
        (∃ u : State, keeps [.printer] s u ∧ u.printer.paper = ⟨false, 0⟩ ∧ t = u.takeEvent ⟨0, none⟩ ⟨7, none, none⟩) ∧
        t.printer.paper = ⟨false, 0⟩ ∧ t.printer.queue = s.printer.queue ∧
        t.printer.column = s.printer.column ∧ t.printer.next = s.printer.next ∧
        t.printer.active =
          s.printer.active.map fun g =>
            if s.printer.motor = .running ∧ s.printer.fault.on = false then { g with issued := true } else g) ∧
    (s.printer.fault = ⟨false, 4⟩ →
      ∃ t, exec .faultAsserted s = .next t ∧ t.printer.fault = ⟨true, 0⟩ ∧ t.printer.active = none ∧
        t.printer.next = none ∧ t.printer.homing = [] ∧ (∀ i, t.printer.right ≠ .drain i) ∧
        (∀ d, t.answer.disp = some d → d.state ≠ .direct) ∧
        (∀ d c, s.answer.disp = some d → d.state = .direct → s.tracker.call = some c → StoreSound s.store →
          switchedOver s c d t) ∧
        (s.printer.drain = none → s.printer.queue <+: t.printer.queue) ∧
        ∀ i e, s.printer.drain = some i → s.store.entry i = some e →
          t.printer.readPos = e.printPos ∧ t.printer.resume = true ∧
            (s.printer.queue.filter fun it => !it.isDrainOf i) <+: t.printer.queue ∧
            ∀ it ∈ t.printer.queue, it.isDrainOf i = false) ∧
    (s.printer.fault = ⟨true, 4⟩ →
      ∃ t, exec .faultCleared s = .next t ∧ t.printer.fault = ⟨false, 0⟩ ∧ t.printer.homeAtSpeed = false ∧
        t.printer.queue = s.printer.queue ∧
        (s.printer.active = none → s.printer.next = none →
          t.printer.active.map Stage.cmd = some (.ret s.printer.width) ∧ t.printer.next.map Stage.cmd = some .feed ∧
            t.printer.homing = [] ∧ t.printer.column = 1) ∧
        (s.printer.motor = .stopped → s.printer.paper.on = false → t.printer.motor = .starting))

/-- The motor's steps: RUNNING at AT-SPEED, when the command waiting is issued and a homing that awaited AT-SPEED is
formed, PAPER OUT or not (one that FAULT's clearing forms is left to it, log 29); MOTOR-FAULT at the loss of AT-SPEED,
when the stages are abandoned and a homing awaits the next AT-SPEED, and at the end of the start count, when stages and
queue stand, a DIRECT message being switched over at both (its entry carries the message's origin and destination, in
an ANSWER or CONTINUE too: the model's choice, log 61); and STOPPED at the end of the run-on, items held by PAPER OUT
or FAULT or not, or at a standing stop request that is met; STARTING again at once where something is due and nothing
holds the printer. An item that joins the queue is a start attempt: it starts the motor from MOTOR-FAULT, and from
STOPPED unless PAPER OUT or FAULT is asserted. That MOTOR-START drops a stop that was met, and that AT-SPEED does not,
is the model's reading (log 25). -/
def Obligations.MotorSteps : Prop :=
  ∀ s : State,
    (s.printer.motor = .starting → s.printer.atSpeed = true →
      ∃ t, exec .atSpeed s = .next t ∧ t.printer.motor = .running ∧ t.printer.queue = s.printer.queue ∧
        t.printer.homeAtSpeed = false ∧
        (s.printer.homeAtSpeed = false ∨ s.printer.fault.on = true →
          t.printer.next = s.printer.next ∧
            t.printer.active =
              s.printer.active.map (fun g =>
                if s.printer.paper.on = false ∧ s.printer.fault.on = false then { g with issued := true } else g)) ∧
        (s.printer.homeAtSpeed = true → s.printer.fault.on = false → s.printer.active = none → s.printer.next = none →
          t.printer.active = some ⟨.ret s.printer.width, !s.printer.paper.on, none⟩ ∧
            t.printer.next = some ⟨.feed, false, none⟩ ∧ t.printer.homing = [] ∧ t.printer.column = 1)) ∧
    (s.printer.motor = .running → s.printer.atSpeed = false →
      ∃ t, exec .atSpeedLost s = .next t ∧ t.printer.active = none ∧ t.printer.next = none ∧
        t.printer.homeAtSpeed = true ∧ t.printer.homing = [] ∧ (∀ i, t.printer.right ≠ .drain i) ∧
        ((∀ d, s.answer.disp = some d → d.state ≠ .direct) → t.printer.motor = .fault) ∧
        (∀ d, t.answer.disp = some d → d.state ≠ .direct) ∧
        ∀ d c, s.answer.disp = some d → d.state = .direct → s.tracker.call = some c → StoreSound s.store →
          switchedOver s c d t) ∧
    (s.printer.motor = .starting → s.printer.atSpeed = false → 3072 ≤ s.printer.startCount →
      ∃ t, exec .motorStartTimeout s = .next t ∧ t.printer.active = s.printer.active ∧
        t.printer.next = s.printer.next ∧ s.printer.queue <+: t.printer.queue ∧ (∀ i, t.printer.right ≠ .drain i) ∧
        ((∀ d, s.answer.disp = some d → d.state ≠ .direct) → t.printer.motor = .fault) ∧
        (∀ d, t.answer.disp = some d → d.state ≠ .direct) ∧
        ∀ d c, s.answer.disp = some d → d.state = .direct → s.tracker.call = some c → StoreSound s.store →
          switchedOver s c d t) ∧
    (let nothingDue : Prop :=
      s.printer.queue = [] ∧ s.printer.active = none ∧ s.printer.next = none ∧ s.printer.ring = false ∧
        s.printer.homing = [] ∧ s.printer.homeAtSpeed = false
     let halted (t : State) : Prop :=
      keeps [.printer] s t ∧ t.printer.stopReq = false ∧ t.printer.runOn = 0 ∧ t.printer.queue = s.printer.queue ∧
        t.printer.active = s.printer.active ∧ t.printer.next = s.printer.next ∧
        (nothingDue ∨ s.printer.paper.on = true ∨ s.printer.fault.on = true → t.printer.motor = .stopped) ∧
        (¬nothingDue → s.printer.paper.on = false → s.printer.fault.on = false →
          t.printer.motor = .starting ∧ t.printer.startCount = 0)
     (s.printer.motor = .running → s.printer.runOut = true →
       ∃ t, exec .runOnExpired s = .next t ∧ halted t) ∧
     (s.printer.motor = .running ∨ s.printer.motor = .starting → s.printer.stopReq = true → s.printer.stopMet = true →
       ∃ t, exec .stopRequestMet s = .next t ∧ halted t)) ∧
    (∀ (p : Printer) (it : PItem), p.queue.length < 64 →
      let q := p.join it
      q.queue = p.queue ++ [it] ∧ q.active = p.active ∧ q.next = p.next ∧ q.right = p.right ∧ q.column = p.column ∧
        (p.motor = .fault ∨ (p.motor = .stopped ∧ p.paper.on = false ∧ p.fault.on = false) →
          q.motor = .starting ∧ q.startCount = 0) ∧
        (p.motor = .starting ∨ p.motor = .running ∨
            (p.motor = .stopped ∧ (p.paper.on = true ∨ p.fault.on = true)) →
          q = { p with queue := p.queue ++ [it] })) ∧
    (∀ n rest c, s.loader.phase = .complete → s.printer.right = .loc → s.printer.queue.length ≤ 62 →
      s.kbd.queue = n :: rest → n.route = .loc → n.code = some c → s.printer.motor = .stopped →
      s.printer.paper.on = false → s.printer.fault.on = false →
      ∃ t, exec .localEntryTaken s = .next t ∧ t.printer.motor = .starting ∧ t.printer.startCount = 0) ∧
    (s.printer.motorStart.stopMet = false ∧ s.printer.motorStart.stopReq = false ∧
      (s.printer.motor = .stopped ∨ s.printer.motor = .fault → s.printer.motorStart.motor = .starting))

/-! ### Punching and event links -/

/-- The row outputs show the row in the active stage, and the feed hole, while the strobe is asserted; that they show
nothing while it is released is the model's choice (log 59). The rows of the punch in order, DONE by DONE, waiting
leader or trailer rows taking the places that come free; the trailer of a keyboard ownership that has idled; and the
tape inputs, with what TAPE-OUT takes away and the events 8 and 9. -/
def Obligations.PunchSteps : Prop :=
  ∀ s : State,
    (∀ r, s.punch.active = some r → s.punch.strobe = true →
      s.punchStrobe = true ∧ s.feedHole = true ∧
        ∀ k : Fin 5, s.punchOutput (k.val + 1) = r.code.getLsbD k.val) ∧
    (s.punch.strobe = false → s.punchStrobe = false ∧ s.feedHole = false ∧ ∀ k, s.punchOutput k = false) ∧
    (∀ o, s.punch.own = some o → o.tag = .keyboard → o.phase ≠ .trailer → 2048 ≤ o.idle → s.punch.queue.length ≤ 20 →
      (s.punch.active = none → s.punch.next = none) →
      ∃ t, exec .keyboardIdleTimeout s = .next t ∧ t.punch.own = none ∧
        t.punch.active.toList ++ t.punch.next.toList ++ t.punch.queue =
          s.punch.active.toList ++ s.punch.next.toList ++ s.punch.queue ++
            List.replicate 12 ⟨0, .trailer, .keyboard⟩) ∧
    (s.punch.active = none → exec .punchDone s = .next s) ∧
    (∀ r, s.punch.active = some r → (∀ o, s.punch.own = some o → o.phase = .text) →
      ∃ t, exec .punchDone s = .next t ∧ t.punch.own = s.punch.own ∧
        t.punch.active.toList ++ t.punch.next.toList ++ t.punch.queue = s.punch.next.toList ++ s.punch.queue ∧
        (s.punch.next ≠ none → t.punch.active = s.punch.next ∧ t.punch.strobe = false) ∧
        (s.punch.next = none → s.punch.queue = [] → t.punch.active = none ∧ t.punch.strobe = false)) ∧
    (∀ r o, s.punch.active = some r → s.punch.own = some o → o.phase ≠ .text →
      let waiting : Nat := if o.phase = .leader then o.leader else o.trailer
      ∃ t n, exec .punchDone s = .next t ∧ n ≤ waiting ∧ (n < waiting → 32 ≤ t.punch.queue.length) ∧
        punchRows t.punch = s.punch.next.toList ++ s.punch.queue ++ List.replicate n ⟨0, o.phase, o.tag⟩ ∧
        t.punch.own =
          (if o.phase = .leader then
            some { o with leader := waiting - n, phase := if n = waiting then .text else .leader }
          else if n = waiting then none else some { o with trailer := waiting - n })) ∧
    (s.punch.low = ⟨false, 4⟩ →
      ∃ t, exec .tapeLow s = .next t ∧ t.punch = { s.punch with low := ⟨true, 0⟩ } ∧ t.tracker = s.tracker ∧
        t = ({ s with punch := { s.punch with low := ⟨true, 0⟩ } } : State).takeEvent ⟨0, none⟩ ⟨8, none, none⟩) ∧
    (s.punch.low = ⟨true, 4⟩ →
      exec .tapeLowCleared s = .next { s with punch := { s.punch with low := ⟨false, 0⟩ } }) ∧
    (s.punch.out = ⟨false, 4⟩ →
      ∃ t, exec .tapeOut s = .next t ∧
        (∃ u : State, keeps [.tracker, .punch] s u ∧ u.punch.out = ⟨true, 0⟩ ∧ t = u.takeEvent ⟨0, none⟩ ⟨9, none, none⟩) ∧
        t.punch =
          { s.punch with out := ⟨true, 0⟩, own := none, queue := [], next := none, active := none, strobe := false } ∧
        ∀ c, s.tracker.call = some c →
          (∃ o, s.punch.own = some o ∧ o.tag = .call c.log.serial ∧ o.phase ≠ .trailer) ∨
            (∃ r, r ∈ s.punch.active.toList ++ s.punch.next.toList ++ s.punch.queue ∧ r.kind = .text ∧
              r.tag = .call c.log.serial) →
          t.tracker.call = some { c with log := { c.log with punch := .incomplete } }) ∧
    (s.punch.out = ⟨true, 4⟩ →
      exec .tapeOutCleared s = .next { s with punch := { s.punch with out := ⟨false, 0⟩ } })

/-- An event's actions: those of the enabled entries that name it and whose condition holds as the event is taken, one
after another in table order. The last lamp action, and the last outbound action, is the one that remains; an action on
a call needs the event's own call to be held, and CALL-END's never is. What each action does: on the held call
PUNCH-CALL, PUNCH-STOP, SPOOL-CALL and KEEP-CALL, and on the printer MOTOR-START, MOTOR-STOP and RING, which is a start
attempt also where the ring request is set already (the model's choice, log 40). Events raised in one step wait in the
matrix and are taken one after another, each once: those of one block as it raised them, a BREAK-SEEN before the
CALL-END of its step, and else in any order; so it is with a change of the free count in the step, which STORE-ROOM
finds made or not as it comes before or after the event. A change that an event reports is taken with that event, of
the free count with the STORE-HIGH that it raises (the model's reading, log 21), and of PAPER OUT with PAPER-OUT or
PAPER-BACK: an event taken before it finds the state as it was. That they are taken at the step's end is the model's
choice (log 21), and so is the spool mark of a MESSAGE call whose record a DELIVER replaced (log 36), and of one whose
DELIVER is open (log 48), and the origin and destination of the entry that a SPOOL-CALL in an ANSWER or CONTINUE
creates (log 61). -/
def Obligations.LinksActInOrder : Prop :=
  (∀ (s : State) (d : Unseen) (ev : BitVec 4) (serial : Option Nat) (table : List Link), s.links.table = some table →
    let seen : State :=
      { s with
        printer := { s.printer with paper := { s.printer.paper with on := d.paper.getD s.printer.paper.on } } }
    let holds (c : BitVec 4) : Bool :=
      if c = 12 then decide (16 < (s.store.free.length : Int) - d.room) else seen.condHolds c
    let rows : List (BitVec 4) :=
      (table.filter fun l => l.enable && decide (l.event = ev) && holds l.cond).map Link.action
    let acts : List Nat := rows.map BitVec.toNat
    let last (on off : Nat) (old : Bool) : Bool :=
      match (acts.filter fun a => decide (a = on ∨ a = off)).getLast? with
      | some a => decide (a = on)
      | none => old
    let t := s.takeEvent d ⟨ev, serial, none⟩
    t = rows.foldl (fun u a => u.doAction (if ev = 3 then none else serial) a) s ∧
      t.links =
        { s.links with
          lampA := last 7 8 s.links.lampA, lampB := last 9 10 s.links.lampB
          alarm := if 11 ∈ acts then some 1024 else s.links.alarm } ∧
      t.store.hold = last 13 14 s.store.hold ∧
      (ev = 3 ∨ (∀ c, s.tracker.call = some c → serial ≠ some c.log.serial) →
        t.punch = s.punch ∧ t.tracker = s.tracker ∧ t.answer = s.answer ∧ t.liu = s.liu ∧
          t.store = { s.store with hold := last 13 14 s.store.hold })) ∧
  (∀ (s : State) (serial : Option Nat),
    let p := s.printer
    let alike (t : State) : Prop :=
      keeps [.printer] s t ∧ t.printer.queue = p.queue ∧ t.printer.active = p.active ∧ t.printer.next = p.next ∧
        t.printer.right = p.right
    (∀ a ∈ [(0 : BitVec 4), 15], s.doAction serial a = s) ∧
    ((∀ c, s.tracker.call = some c → serial ≠ some c.log.serial) →
      ∀ a ∈ [(1 : BitVec 4), 2, 5, 6], s.doAction serial a = s) ∧
    (let t := s.doAction serial 3
     alike t ∧ t.printer.stopReq = false ∧ t.printer.runOn = 0 ∧ t.printer.ring = p.ring ∧
      (p.motor = .stopped ∨ p.motor = .fault → t.printer.motor = .starting ∧ t.printer.startCount = 0) ∧
      (p.motor = .starting ∨ p.motor = .running →
        t.printer.motor = p.motor ∧ t.printer.startCount = p.startCount)) ∧
    (s.doAction serial 4 =
      if p.motor = .starting ∨ p.motor = .running then { s with printer := { p with stopReq := true } } else s) ∧
    (let t := s.doAction serial 12
     alike t ∧ t.printer.ring = true ∧ t.printer.stopReq = p.stopReq ∧
      (p.motor = .fault ∨ (p.motor = .stopped ∧ p.paper.on = false ∧ p.fault.on = false) →
        t.printer.motor = .starting ∧ t.printer.startCount = 0) ∧
      (p.motor = .starting ∨ p.motor = .running ∨ (p.motor = .stopped ∧ (p.paper.on = true ∨ p.fault.on = true)) →
        t.printer = { p with ring := true }))) ∧
  (∀ (s : State) (c : Call), s.tracker.call = some c →
    let n : Nat := c.log.serial
    let act (a : BitVec 4) : State := s.doAction (some n) a
    let result (x : PunchResult) : Tracker :=
      { s.tracker with
        call := some { c with log := { c.log with punch := if c.log.punch = .incomplete then .incomplete else x } } }
    (s.kbd.punchSw.pos = .off ∨ s.punch.claim = some .made → act 1 = s) ∧
    (s.kbd.punchSw.pos ≠ .off → s.punch.claim ≠ some .made →
      (c.textStarted = false → act 1 = { s with punch := { s.punch with claim := some .wanted } }) ∧
      (c.textStarted = true →
        let free : Prop := s.punch.own = none ∧ s.punch.low.on = false ∧ s.punch.out.on = false
        (¬free → act 1 = { s with punch := { s.punch with claim := some .made }, tracker := result .missed }) ∧
        (free → (s.punch.active = none → s.punch.next = none) →
          keeps [.tracker, .punch] s (act 1) ∧ (act 1).tracker = result .punched ∧ (act 1).punch.claim = some .made ∧
            ∃ k, rowsJoined s.punch (act 1).punch ⟨0, .leader, .call n⟩ 12 k ∧
              (act 1).punch.own = some ⟨.call n, if k = 12 then .text else .leader, 12 - k, 0, false, 0⟩))) ∧
    (∀ w, s.punch.own = some w → w.tag = .call n → w.phase ≠ .trailer →
      (s.punch.active = none → s.punch.next = none) →
      keeps [.punch] s (act 2) ∧ (act 2).punch.claim = s.punch.claim ∧
        ∃ k, rowsJoined s.punch (act 2).punch ⟨0, .trailer, .call n⟩ 12 k ∧
          (act 2).punch.own = if k = 12 then none else some { w with phase := .trailer, leader := 0, trailer := 12 - k }) ∧
    ((∀ w, s.punch.own = some w → w.tag = .call n → w.phase = .trailer) →
      act 2 =
        { s with
          punch :=
            { s.punch with
              claim :=
                match s.punch.claim with
                | some .wanted => some .notWanted
                | some .notWanted => some .made
                | x => x } }) ∧
    (s.answer.disp = none →
      act 5 =
        if c.log.kind = .message ∨ c.log.role = .caller then
          { s with answer := { s.answer with callSpool := true } }
        else s) ∧
    (∀ d, s.answer.disp = some d →
      (d.state = .awaited →
        keeps [.tracker, .answer] s (act 5) ∧
          (act 5).answer = { s.answer with disp := some { d with spoolMark := true } } ∧
          (d.recorded = none → (act 5).tracker = s.tracker)) ∧
      (d.state = .direct → StoreSound s.store →
        switchedOver s c d (act 5) ∧ (act 5).answer.callSpool = s.answer.callSpool) ∧
      (d.state = .spool ∨ d.state = .lost ∨ d.state = .refused → act 5 = s)) ∧
    keeps [.store] s (act 6) ∧ (act 6).store.note = some n ∧ (act 6).store.cells = s.store.cells ∧
    (act 6).store.free = s.store.free ∧ (act 6).store.order = s.store.order ∧
    ∀ i, (act 6).store.entry i =
      (s.store.entry i).map fun e => if e.kind = .received ∧ e.serial = n then { e with kept := true } else e) ∧
  (∀ (st : Store) (q : CreateReq) (i : Nat), (st.create q).2 = some i →
    ∃ e, (st.create q).1.entry i = some e ∧ e.serial = q.serial ∧
      e.kept = decide (q.kind = .received ∧ st.note = some q.serial)) ∧
  (∀ (s : State) (ev : BitVec 4) (serial : Option Nat),
    s.raise ev serial =
      { s with links := { s.links with raised := s.links.raised ++ [⟨⟨ev, serial, none⟩, s.store.free.length⟩] } }) ∧
  (∀ (n m : Nat) (rs : List Raised),
    (arrivals n rs m).filterMap (fun a => match a with | .event e _ => some e | .room _ => none) =
        rs.map Raised.event ∧
      (unseenOf (arrivals n rs m)).room = (m : Int) - n ∧
      ∀ p r q, rs = p ++ r :: q →
        ∃ (as : List Arrival) (d : Int), arrivals n rs m = as ++ .event r.event d :: arrivals r.free q m ∧
          (unseenOf as).room + d = (r.free : Int) - n ∧ (r.event.code ≠ 13 → d = 0) ∧
          (r.event.code = 13 → ∀ bs c, as ≠ bs ++ [.room c])) ∧
  (∀ as : List Arrival,
    (unseenOf as).paper =
      as.findSome? fun a =>
        match a with
        | .event e _ => if e.code = 6 then some false else if e.code = 7 then some true else none
        | .room _ => none) ∧
  (∀ (s : State) (as bs : List Arrival),
    (∀ a ∈ as, ∃ d, a = .room d) →
      s.takeInOrder as = s ∧
        ∀ e d, s.takeInOrder (as ++ .event e d :: bs) = (s.takeEvent (unseenOf bs) e).takeInOrder bs) ∧
  ∀ (s : State) (n : Nat) (kept : List Raised),
    let as : List Arrival := arrivals n s.links.raised s.store.free.length
    let ofBlock (l : List Arrival) (codes : List (BitVec 4)) : List Arrival :=
      l.filter fun a => match a with | .event e _ => decide (e.code ∈ codes) | .room _ => decide (13 ∈ codes)
    ∃ (taken : List Arrival) (k : Nat), taken.Perm as ∧
      (∀ codes ∈ [[(0 : BitVec 4), 1, 2, 3, 4], [5], [6, 7], [8, 9], [10, 11, 12], [13, 14], [15]],
        ofBlock taken codes = ofBlock as codes) ∧
      (∀ b rest, s.links.raised = b :: rest → b.event.code = 5 → (∀ r ∈ rest, r.event.code ≠ 5) →
        ofBlock taken [3, 5] = ofBlock as [3, 5]) ∧
      s.takeRaised n kept =
        ({ s with links := { s.links with raised := kept, choices := k } } : State).takeInOrder taken

/-- The conditions of the link table. -/
def Obligations.LinkConditionsRead : Prop :=
  ∀ s : State,
    let tape : Prop := s.punch.low.on = false ∧ s.punch.out.on = false
    let good : Prop := s.quality.fine.flag = false ∧ s.quality.coarse.flag = false
    s.condHolds 0 = true ∧ (s.condHolds 1 = true ↔ s.kbd.attended.pos = true) ∧
      (s.condHolds 2 = true ↔ s.kbd.attended.pos = false) ∧ (s.condHolds 3 = true ↔ s.printer.paper.on = false) ∧
      (s.condHolds 4 = true ↔ s.printer.paper.on = true) ∧ (s.condHolds 5 = true ↔ tape) ∧
      (s.condHolds 6 = true ↔ ¬tape) ∧ (s.condHolds 7 = true ↔ good) ∧ (s.condHolds 8 = true ↔ ¬good) ∧
      (s.condHolds 9 = true ↔ s.kbd.attended.pos = false ∧ s.printer.paper.on = false) ∧
      (s.condHolds 10 = true ↔ s.kbd.attended.pos = false ∧ tape) ∧
      (s.condHolds 11 = true ↔ s.printer.paper.on = false ∧ good) ∧
      (s.condHolds 12 = true ↔ 16 < s.store.free.length) ∧
      (s.condHolds 13 = true ↔ s.printer.paper.on = true ∨ ¬good) ∧ s.condHolds 14 = false ∧ s.condHolds 15 = false

/-! ### The service port -/

/-- Select going low begins a transaction where the port exists, no reset is asserted and select was seen high: the
status byte is frozen, and WATCH is left; otherwise only the level is noted (the model's choice, log 6), and while a
reset is asserted there is no transaction to answer with NAK (the model's choice, log 62). The status byte, bit by bit;
and ALERT, which is asserted while a status flag whose mask bit is set is itself set. -/
def Obligations.SelectLowBeginsTransaction : Prop :=
  (∀ s : State, ∃ t, exec .selectLow s = .next t ∧ t.port.selectLow = true ∧
     (if s.loader.svc = true ∧ s.loader.phase ≠ .inReset ∧ s.port.selectLow = false then
       t.port.txn =
           some
             { status := s.statusByte, errSince := false, early := decide (s.loader.phase ≠ .complete), taken := false
               response := [], effect := .none } ∧
         t.answer.watch = false ∧ t.answer.watchCount = 0 ∧ (s.answer.watch = true → t.kbd.scanWait = 0)
     else t = { s with port := { s.port with selectLow := true } })) ∧
  (∀ s : State,
     s.statusByte.getLsbD 0 = s.port.errFlag ∧ s.statusByte.getLsbD 1 = s.tracker.call.isSome ∧
       s.statusByte.getLsbD 2 = s.quality.fine.flag ∧ s.statusByte.getLsbD 3 = s.quality.coarse.flag ∧
       s.statusByte.getLsbD 4 = s.printer.paper.on ∧ s.statusByte.getLsbD 5 = s.punch.out.on ∧
       s.statusByte.getLsbD 6 = s.store.high ∧ s.statusByte.getLsbD 7 = false) ∧
  (∀ s : State, s.alert = true ↔ ∃ k, k < 7 ∧ s.statusByte.getLsbD k = true ∧ s.port.mask.getLsbD k = true)

/-- Select going high ends the transaction, with the effect that its command has then. With none open the level alone
is noted (the model's choice, log 6), and a RESET leaves values of log 6 and log 7 too, starts a retry timer again that
stood at 0 with its expiry not yet taken (log 37), and leaves the value of a DELIVER that it cuts out of the record
(log 44). -/
def Obligations.SelectHighEndsTransaction : Prop :=
  ∀ s : State,
    (s.port.txn = none → exec .selectHigh s = .next { s with port := { s.port with selectLow := false } }) ∧
    ∀ x, s.port.txn = some x →
      (x.effect = .none →
        exec .selectHigh s = .next { s with port := { s.port with selectLow := false, txn := none } }) ∧
      (x.effect = .clearError →
        exec .selectHigh s =
          .next
            { s with
              port := { s.port with selectLow := false, txn := none, errFlag := s.port.errFlag && x.errSince } }) ∧
      (∀ m, x.effect = .setMask m →
        exec .selectHigh s = .next { s with port := { s.port with selectLow := false, txn := none, mask := m } }) ∧
      (∀ f c, x.effect = .clearSticky f c →
        exec .selectHigh s =
          .next
            { s with
              port := { s.port with selectLow := false, txn := none }
              quality :=
                { s.quality with
                  fine := { s.quality.fine with sticky := s.quality.fine.sticky && !f }
                  coarse := { s.quality.coarse with sticky := s.quality.coarse.sticky && !c } } }) ∧
      (x.effect = .reset →
        ∃ t, exec .selectHigh s = .next t ∧ t.loader.cause = .service ∧ t.port.selectLow = false ∧
          resetKeeping { s with port := { s.port with selectLow := false } } t)

/-- STATUS, ALERT_MASK, QUALITY, IDENT and RESET in an open transaction that began after start-up: each answers its
response, the frozen status byte first, and what it does at the end of the transaction. -/
def Obligations.PlainTransactionsAnswer : Prop :=
  ∀ (s : State) (x : Txn), s.port.txn = some x → x.taken = false → x.early = false →
    let answer (body : List Byte) (e : TxnEffect) : State :=
      { s with port := { s.port with txn := some { x with taken := true, response := x.status :: body, effect := e } } }
    exec .svcStatus s = .next (answer [] (if x.status.getLsbD 0 then .clearError else .none)) ∧
      (∀ p : Byte,
        let m : BitVec 7 :=
          if p.getLsbD 7 then s.port.mask ||| p.setWidth 7 else s.port.mask &&& ~~~(p.setWidth 7)
        exec (.svcAlertMask p) s = .next (answer [m.setWidth 8] (.setMask m))) ∧
      (∃ q : Byte,
        exec .svcQuality s =
            .next
              (answer [BitVec.ofNat 8 s.quality.fine.counter, BitVec.ofNat 8 s.quality.coarse.counter, q]
                (.clearSticky s.quality.fine.sticky s.quality.coarse.sticky)) ∧
          q.getLsbD 0 = s.quality.fine.flag ∧ q.getLsbD 1 = s.quality.coarse.flag ∧
          q.getLsbD 2 = s.quality.fine.sticky ∧ q.getLsbD 3 = s.quality.coarse.sticky ∧
          q.toNat / 16 = (match s.quality.lq with | .good => 0 | .fair => 1 | .poor => 2)) ∧
      (∃ flags straps1 straps2 : Byte,
        exec .svcIdent s =
            .next
              (answer
                [0x01, 0x9C, 1,
                  (match s.loader.config with
                   | some .noAnswer => 1
                   | some .markerWrong => 2
                   | some .codeInvalid => 3
                   | _ => 0),
                  flags, (match s.loader.cause with | .power => 1 | .pin => 2 | .service => 3), straps1, straps2]
                .none) ∧
          flags.getLsbD 0 = s.rateInvalid ∧ flags.getLsbD 1 = s.links.isDefault ∧
          flags.getLsbD 2 = decide (s.answer.facility = .disabled) ∧
          flags.getLsbD 3 = decide (s.answer.facility = .locked) ∧ flags.getLsbD 4 = s.store.fault ∧
          flags.toNat < 32 ∧
          straps1.toNat =
            s.loader.straps.rate.toNat + 8 * s.loader.straps.stop.toNat + 32 * s.loader.straps.margin.toNat ∧
          straps2.toNat =
            s.loader.straps.width.toNat + 4 * s.loader.straps.anl.toNat + 8 * s.loader.straps.usos.toNat +
              16 * s.loader.straps.monitor.toNat + 32 * s.loader.straps.keepPrinted.toNat +
              64 * s.loader.straps.verify.toNat) ∧
      exec .svcReset s = .next (answer [] .reset)

/-- LOG and DIRECTORY in an open transaction: a record held and an index of 0 to 31 are answered with the 38 and 22
bytes of R193's tables, an empty slot with zeros; any other number is refused with NAK. Beyond its bytes a response
reads 0x00, and data out is inactive without the SVC latch. That it is inactive while no response is formed, and that a
transaction begun between a service RESET and the end of start-up is answered on it, are the model's choice (log 20,
log 38). -/
def Obligations.LogAndDirectoryAnswer : Prop :=
  (∀ (s : State) (x : Txn) (n : Byte), s.port.txn = some x → x.taken = false → x.early = false →
    let answer (r : List Byte) : State :=
      { s with port := { s.port with txn := some { x with taken := true, response := r, effect := .none } } }
    let records := ((s.tracker.call.toList.map Call.log) ++ s.tracker.log).take 16
    (∀ r, records[n.toNat]? = some r → exec (.svcLog n) s = .next (answer (x.status :: callRecordBytes r))) ∧
      (records.length ≤ n.toNat → exec (.svcLog n) s = .next (answer [x.status ||| 0x80])) ∧
      (32 ≤ n.toNat → exec (.svcDirectory n) s = .next (answer [x.status ||| 0x80])) ∧
      (n.toNat < 32 → s.store.entry n.toNat = none →
        exec (.svcDirectory n) s = .next (answer (x.status :: List.replicate 22 0))) ∧
      ∀ e, n.toNat < 32 → s.store.entry n.toNat = some e →
        exec (.svcDirectory n) s =
          .next (answer (x.status :: directoryBytes e (s.store.order.idxOf n.toNat)))) ∧
  (∀ (r : LogRecord) (e : DirEntry) (k : Nat), (callRecordBytes r).length = 38 ∧ (directoryBytes e k).length = 22) ∧
  (∀ (s : State) (k : Nat),
    (∀ x, s.loader.svc = true → s.port.txn = some x → x.taken = true →
      (∀ b, x.response[k]? = some b → s.dataOut k = some b) ∧
        (x.response.length ≤ k → s.dataOut k = some 0)) ∧
      (s.loader.svc = false ∨ (∀ x, s.port.txn = some x → x.taken = false) → s.dataOut k = none))

/-- TEXT in an open transaction returns the cells from the offset, at most the count; each with its code, its error
mark and whether it failed parity. A cell that fails parity marks the entry DAMAGED and sets the STORE-FAULT latch. -/
def Obligations.TextReturnsCells : Prop :=
  ∀ (s : State) (x : Txn) (idx count : Byte) (off : BitVec 16) (e : DirEntry), s.port.txn = some x → x.taken = false →
    x.early = false → idx.toNat < 32 → s.store.entry idx.toNat = some e →
    (off.toNat < e.len → 1 ≤ count.toNat → count.toNat ≤ 64 →
      ∃ t body, exec (.svcText idx off count) s = .next t ∧ t.store.cells = s.store.cells ∧
        t.port.txn =
          some
            { x with
              taken := true, effect := .none
              response := x.status :: BitVec.ofNat 8 (min count.toNat (e.len - off.toNat)) :: body } ∧
        body.length = min count.toNat (e.len - off.toNat) ∧
        (∀ k b, body[k]? = some b →
          let c := Memory.read s.store.cells (cellAddr e.chain (off.toNat + k))
          b.setWidth 5 = c.code ∧ b.getLsbD 5 = (c.err || !c.good) ∧ b.getLsbD 6 = !c.good ∧ b.getLsbD 7 = false) ∧
        ((∃ k, k < body.length ∧ (Memory.read s.store.cells (cellAddr e.chain (off.toNat + k))).good = false) →
          t.store.fault = true ∧ (t.store.entry idx.toNat).any DirEntry.damaged = true) ∧
        ((∀ k, k < body.length → (Memory.read s.store.cells (cellAddr e.chain (off.toNat + k))).good = true) →
          t.store = s.store)) ∧
    (e.len ≤ off.toNat ∨ count.toNat = 0 ∨ 64 < count.toNat →
      exec (.svcText idx off count) s =
        .next
          { s with
            port := { s.port with
              txn := some { x with taken := true, response := [x.status ||| 0x80], effect := .none } } })

/-- DELETE, KEEP and RELEASE in an open transaction: the result byte is 0 done, 1 busy or 2 empty slot, and a command
that is not done leaves the store as it was. RELEASE deletes a KEPT entry that is finished and that the straps do not
keep, and of any other clears the mark alone. -/
def Obligations.EntryCommands : Prop :=
  ∀ (s : State) (x : Txn) (idx : Byte), s.port.txn = some x → x.taken = false → x.early = false → idx.toNat < 32 →
    let port (b : Byte) : Port :=
      { s.port with txn := some { x with taken := true, response := [x.status, b], effect := .none } }
    (s.store.entry idx.toNat = none →
      ∀ c ∈ [Instr.svcDelete idx, .svcKeep idx, .svcRelease idx], exec c s = .next { s with port := port 2 }) ∧
    ∀ e, s.store.entry idx.toNat = some e →
      (e.state = .opened ∨ e.state = .sending ∨ e.state = .delivering →
        exec (.svcDelete idx) s = .next { s with port := port 1 }) ∧
      (e.state ≠ .opened → e.state ≠ .sending → e.state ≠ .delivering →
        ∃ t, exec (.svcDelete idx) s = .next t ∧ t.port = port 0 ∧ t.store.entry idx.toNat = none ∧
          t.store.cells = s.store.cells ∧ (∀ b, b ∈ t.store.free ↔ b ∈ s.store.free ∨ b ∈ e.chain) ∧
          (∀ j, j ≠ idx.toNat → t.store.entry j = s.store.entry j) ∧
          (s.printer.drain ≠ some idx.toNat → t.printer = s.printer) ∧
          (s.printer.drain = some idx.toNat →
            t.printer.drain = none ∧ t.printer.right ≠ .drain idx.toNat ∧
              t.printer.queue = s.printer.queue.filter fun it => !it.isDrainOf idx.toNat)) ∧
      exec (.svcKeep idx) s =
        .next
          { s with
            port := port 0
            store := { s.store with slots := s.store.slots.set idx.toNat (some { e with kept := true }) } } ∧
      (e.kept = true → (e.print = .printed ∧ e.kind = .received ∧ s.loader.straps.keepPrinted = false) ∨
          (e.kind = .prepared ∧ e.state = .sent) ∨ (e.kind = .held ∧ e.state = .delivered) →
        ∃ t, exec (.svcRelease idx) s = .next t ∧ t.port = port 0 ∧ t.store.entry idx.toNat = none) ∧
      let finished : Prop :=
        e.kind = .received ∧ e.print = .printed ∨ e.kind = .prepared ∧ e.state = .sent ∨
          e.kind = .held ∧ e.state = .delivered
      (e.kept = false ∨ ¬finished ∨ e.kind = .received ∧ s.loader.straps.keepPrinted = true →
        exec (.svcRelease idx) s =
          .next
            { s with
              port := port 0
              store := { s.store with slots := s.store.slots.set idx.toNat (some { e with kept := false }) } })

/-- The command that each command byte and its parameters spell. An unknown command byte, a parameter out of range, and
a transaction begun before start-up is complete are refused: NAK, the status byte's top bit set, and nothing else. A
service command with no transaction open, or after the transaction's command has been taken, does nothing. -/
def Obligations.RefusedTransactions : Prop :=
  (∀ p : Byte,
     decodeTransaction 0x01 [] = .svcStatus ∧ decodeTransaction 0x02 [p] = .svcAlertMask p ∧
       decodeTransaction 0x03 [] = .svcQuality ∧ decodeTransaction 0x08 [] = .svcReset ∧
       decodeTransaction 0x09 [] = .svcIdent ∧
       (p.toNat < 16 → decodeTransaction 0x04 [p] = .svcLog p) ∧
       (p.toNat < 32 →
         decodeTransaction 0x05 [p] = .svcDirectory p ∧ decodeTransaction 0x07 [1, p] = .svcDelete p ∧
           decodeTransaction 0x07 [2, p] = .svcKeep p ∧ decodeTransaction 0x07 [3, p] = .svcRelease p ∧
           ∀ hi lo n : Byte, 1 ≤ n.toNat → n.toNat ≤ 64 →
             ∃ off, decodeTransaction 0x06 [p, hi, lo, n] = .svcText p off n ∧ off.toNat = 256 * hi.toNat + lo.toNat) ∧
       (32 ≤ p.toNat → decodeTransaction 0x05 [p] = .svcNak 0x05 [p]) ∧
       ∀ op : Byte, op = 0 ∨ 3 < op.toNat → decodeTransaction 0x07 [op, p] = .svcNak 0x07 [op, p]) ∧
  (∀ (cmd : Byte) (ps : List Byte), cmd = 0 ∨ 9 < cmd.toNat → decodeTransaction cmd ps = .svcNak cmd ps) ∧
  (∀ (s : State) (x : Txn) (cmd : Byte) (ps : List Byte), s.port.txn = some x → x.taken = false →
     let refused : State :=
       { s with port := { s.port with txn := some { x with taken := true, response := [x.status ||| 0x80], effect := .none } } }
     (cmd = 0 ∨ 9 < cmd.toNat → exec (.svcNak cmd []) s = .next refused) ∧
       (ps.length = paramCount cmd → x.early = true → exec (.svcNak cmd ps) s = .next refused) ∧
       (x.early = true →
         ∀ c ∈ [Instr.svcStatus, .svcQuality, .svcIdent, .svcReset, .svcDelete cmd, .svcKeep cmd, .svcRelease cmd,
             .svcDirectory cmd, .svcLog cmd, .svcAlertMask cmd], exec c s = .next refused) ∧
       (∀ off n, x.early = true → exec (.svcText cmd off n) s = .next refused) ∧
       (∀ i : Byte, 31 < i.toNat →
         ∀ c ∈ [Instr.svcDelete i, .svcKeep i, .svcRelease i, .svcDirectory i], exec c s = .next refused)) ∧
  (∀ (c : Instr) (s : State),
     c ∈ [Instr.svcStatus, .svcQuality, .svcIdent, .svcReset] ∨ (∃ p, c ∈ [Instr.svcAlertMask p, .svcLog p, .svcDirectory p,
       .svcDelete p, .svcKeep p, .svcRelease p]) ∨ (∃ i o n, c = .svcText i o n) ∨ (∃ b ps, c = .svcNak b ps) →
     (∀ x, s.port.txn = some x → x.taken = true) → exec c s = .next s)
end

