-- ==== Sys2Proof/Laws/Frames.lean ====
section
/-! SUPPORT. The frame of every shared operation over the whole state: which blocks it can change. -/

namespace Sys2Proof.Machine

open Sys2Proof.Safety

/-! ### Reasoning about frames -/

/-- Every block of one list is in the other. -/
def Block.within (as bs : List Block) : Bool := as.all bs.contains

theorem keeps_refl (bs : List Block) (s : State) : keeps bs s s := fun b _ => by cases b <;> rfl

theorem keeps_trans {bs : List Block} {s t u : State} (h : keeps bs s t) (k : keeps bs t u) : keeps bs s u := by
  intro b hb
  have h1 := h b hb
  have h2 := k b hb
  cases b <;> exact Eq.trans h2 h1

theorem keeps_mono {as bs : List Block} {s t : State} (h : keeps as s t) (d : Block.within as bs = true) :
    keeps bs s t := by
  intro b hb
  refine h b fun ha => hb ?_
  have := List.all_eq_true.1 d b ha
  simpa using this

/-- A further step that changes only some of the blocks. -/
theorem keeps_step {as bs : List Block} {s t u : State} (h : keeps bs s t) (k : keeps as t u)
    (d : Block.within as bs = true) : keeps bs s u := keeps_trans h (keeps_mono k d)

/-- A list of steps. -/
theorem keeps_foldl {α : Type} {bs : List Block} (f : State → α → State) (hf : ∀ t a, keeps bs t (f t a)) (xs : List α)
    (s : State) : keeps bs s (xs.foldl f s) := by
  induction xs generalizing s with
  | nil => exact keeps_refl bs s
  | cons x xs ih => exact keeps_trans (hf s x) (ih (f s x))

/-! ### Putting one block back -/



theorem State.setLoader_keeps (s : State) (x : Loader) : keeps [.loader] s (s.setLoader x) := by
  intro b hb; cases b <;> first | rfl | exact absurd (by decide) hb

theorem State.setLiu_keeps (s : State) (x : Liu) : keeps [.liu] s (s.setLiu x) := by
  intro b hb; cases b <;> first | rfl | exact absurd (by decide) hb

theorem State.setFramer_keeps (s : State) (x : Framer) : keeps [.framer] s (s.setFramer x) := by
  intro b hb; cases b <;> first | rfl | exact absurd (by decide) hb

theorem State.setGauge_keeps (s : State) (x : Gauge) : keeps [.gauge] s (s.setGauge x) := by
  intro b hb; cases b <;> first | rfl | exact absurd (by decide) hb

theorem State.setQuality_keeps (s : State) (x : Quality) : keeps [.quality] s (s.setQuality x) := by
  intro b hb; cases b <;> first | rfl | exact absurd (by decide) hb

theorem State.setSender_keeps (s : State) (x : Sender) : keeps [.sender] s (s.setSender x) := by
  intro b hb; cases b <;> first | rfl | exact absurd (by decide) hb

theorem State.setListener_keeps (s : State) (x : Listener) : keeps [.listener] s (s.setListener x) := by
  intro b hb; cases b <;> first | rfl | exact absurd (by decide) hb

theorem State.setTracker_keeps (s : State) (x : Tracker) : keeps [.tracker] s (s.setTracker x) := by
  intro b hb; cases b <;> first | rfl | exact absurd (by decide) hb

theorem State.setKbd_keeps (s : State) (x : Kbd) : keeps [.kbd] s (s.setKbd x) := by
  intro b hb; cases b <;> first | rfl | exact absurd (by decide) hb

theorem State.setPrinter_keeps (s : State) (x : Printer) : keeps [.printer] s (s.setPrinter x) := by
  intro b hb; cases b <;> first | rfl | exact absurd (by decide) hb

theorem State.setPunch_keeps (s : State) (x : Punch) : keeps [.punch] s (s.setPunch x) := by
  intro b hb; cases b <;> first | rfl | exact absurd (by decide) hb

theorem State.setStore_keeps (s : State) (x : Store) : keeps [.store] s (s.setStore x) := by
  intro b hb; cases b <;> first | rfl | exact absurd (by decide) hb

theorem State.setAnswer_keeps (s : State) (x : Answer) : keeps [.answer] s (s.setAnswer x) := by
  intro b hb; cases b <;> first | rfl | exact absurd (by decide) hb

theorem State.setLinks_keeps (s : State) (x : Links) : keeps [.links] s (s.setLinks x) := by
  intro b hb; cases b <;> first | rfl | exact absurd (by decide) hb

theorem State.setPort_keeps (s : State) (x : Port) : keeps [.port] s (s.setPort x) := by
  intro b hb; cases b <;> first | rfl | exact absurd (by decide) hb


/-! ### Shared operations -/



theorem State.modCall_keeps (s : State) (f : Call → Call) : keeps [.tracker] s (s.modCall f) := by
  unfold State.modCall
  try dsimp only
  repeat' first
    | with_reducible exact keeps_refl _ _
    | (show Block.within _ _ = true; rfl)
    | with_reducible apply keeps_step (k := State.setTracker_keeps _ _)

theorem State.modLog_keeps (s : State) (f : LogRecord → LogRecord) : keeps [.tracker] s (s.modLog f) := by
  unfold State.modLog
  try dsimp only
  repeat' first
    | with_reducible exact keeps_refl _ _
    | (show Block.within _ _ = true; rfl)
    | with_reducible apply keeps_step (k := State.modCall_keeps _ _)

theorem State.wake_keeps (s : State) : keeps [.kbd, .answer] s s.wake := by
  unfold State.wake
  try dsimp only
  repeat' first
    | with_reducible exact keeps_refl _ _
    | (show Block.within _ _ = true; rfl)
    | with_reducible apply keeps_step (k := State.setAnswer_keeps _ _)
    | with_reducible apply keeps_step (k := State.setKbd_keeps _ _)
    | split

theorem State.requestBurst_keeps (s : State) : keeps [.liu] s s.requestBurst := by
  unfold State.requestBurst
  try dsimp only
  repeat' first
    | with_reducible exact keeps_refl _ _
    | (show Block.within _ _ = true; rfl)
    | with_reducible apply keeps_step (k := State.setLiu_keeps _ _)
    | split

theorem State.putDisp_keeps (s : State) (d : DispRecord) : keeps [.tracker, .answer] s (s.putDisp d) := by
  unfold State.putDisp
  try dsimp only
  repeat' first
    | with_reducible exact keeps_refl _ _
    | (show Block.within _ _ = true; rfl)
    | with_reducible apply keeps_step (k := State.setAnswer_keeps _ _)
    | with_reducible apply keeps_step (k := State.modLog_keeps _ _)
    | split

theorem State.loseRest_keeps (s : State) (d : DispRecord) : keeps [.liu, .tracker, .answer] s (s.loseRest d) := by
  unfold State.loseRest
  try dsimp only
  repeat' first
    | with_reducible exact keeps_refl _ _
    | (show Block.within _ _ = true; rfl)
    | with_reducible apply keeps_step (k := State.putDisp_keeps _ _)
    | with_reducible apply keeps_step (k := State.requestBurst_keeps _)
    | split

theorem State.createReceived_keeps (s : State) (d : DispRecord) (continued : Bool) :
    keeps [.tracker, .store] s (s.createReceived d continued).1 := by
  unfold State.createReceived
  try dsimp only
  repeat' first
    | with_reducible exact keeps_refl _ _
    | (show Block.within _ _ = true; rfl)
    | with_reducible apply keeps_step (k := State.modLog_keeps _ _)
    | with_reducible apply keeps_step (k := State.setStore_keeps _ _)
    | split

theorem State.switchOver_keeps (s : State) (d : DispRecord) :
    keeps [.liu, .tracker, .printer, .store, .answer] s (s.switchOver d) := by
  unfold State.switchOver
  try dsimp only
  repeat' first
    | with_reducible exact keeps_refl _ _
    | (show Block.within _ _ = true; rfl)
    | with_reducible apply keeps_step (k := State.putDisp_keeps _ _)
    | with_reducible apply keeps_step (k := State.setPrinter_keeps _ _)
    | with_reducible apply keeps_step (k := State.createReceived_keeps _ _ _)
    | with_reducible apply keeps_step (k := State.loseRest_keeps _ _)
    | split

theorem State.switchDirect_keeps (s : State) :
    keeps [.liu, .tracker, .printer, .store, .answer] s s.switchDirect := by
  unfold State.switchDirect
  try dsimp only
  repeat' first
    | with_reducible exact keeps_refl _ _
    | (show Block.within _ _ = true; rfl)
    | with_reducible apply keeps_step (k := State.switchOver_keeps _ _)
    | split

theorem State.claimPunch_keeps (s : State) : keeps [.tracker, .punch] s s.claimPunch := by
  unfold State.claimPunch
  try dsimp only
  repeat' first
    | with_reducible exact keeps_refl _ _
    | (show Block.within _ _ = true; rfl)
    | with_reducible apply keeps_step (k := State.modLog_keeps _ _)
    | with_reducible apply keeps_step (k := State.setPunch_keeps _ _)
    | split

theorem State.punchCall_keeps (s : State) : keeps [.tracker, .punch] s s.punchCall := by
  unfold State.punchCall
  try dsimp only
  repeat' first
    | with_reducible exact keeps_refl _ _
    | (show Block.within _ _ = true; rfl)
    | with_reducible apply keeps_step (k := State.setPunch_keeps _ _)
    | with_reducible apply keeps_step (k := State.claimPunch_keeps _)
    | split

theorem State.punchStop_keeps (s : State) : keeps [.punch] s s.punchStop := by
  unfold State.punchStop
  try dsimp only
  repeat' first
    | with_reducible exact keeps_refl _ _
    | (show Block.within _ _ = true; rfl)
    | with_reducible apply keeps_step (k := State.setPunch_keeps _ _)
    | split

theorem State.spoolCall_keeps (s : State) : keeps [.liu, .tracker, .printer, .store, .answer] s s.spoolCall := by
  unfold State.spoolCall
  try dsimp only
  repeat' first
    | with_reducible exact keeps_refl _ _
    | (show Block.within _ _ = true; rfl)
    | with_reducible apply keeps_step (k := State.putDisp_keeps _ _)
    | with_reducible apply keeps_step (k := State.setAnswer_keeps _ _)
    | with_reducible apply keeps_step (k := State.switchOver_keeps _ _)
    | split

theorem State.doAction_keeps (s : State) (serial : Option Nat) (a : BitVec 4) :
    keeps [.liu, .tracker, .printer, .punch, .store, .answer, .links] s (s.doAction serial a) := by
  unfold State.doAction
  try dsimp only
  repeat' first
    | with_reducible exact keeps_refl _ _
    | (show Block.within _ _ = true; rfl)
    | with_reducible apply keeps_step (k := State.punchStop_keeps _)
    | with_reducible apply keeps_step (k := State.setPrinter_keeps _ _)
    | with_reducible apply keeps_step (k := State.setStore_keeps _ _)
    | with_reducible apply keeps_step (k := State.setLinks_keeps _ _)
    | with_reducible apply keeps_step (k := State.spoolCall_keeps _)
    | with_reducible apply keeps_step (k := State.punchCall_keeps _)
    | split

/-- An action of an event that names no call. -/
theorem State.doAction_none_keeps (s : State) (a : BitVec 4) : keeps [.printer, .store, .links] s (s.doAction none a) := by
  have h : s.holdsCall none = false := by
    unfold State.holdsCall
    cases s.tracker.call <;> rfl
  unfold State.doAction
  simp only [h, Bool.false_eq_true, if_false]
  repeat' first
    | with_reducible exact keeps_refl _ _
    | (show Block.within _ _ = true; rfl)
    | with_reducible apply keeps_step (k := State.setPrinter_keeps _ _)
    | with_reducible apply keeps_step (k := State.setStore_keeps _ _)
    | with_reducible apply keeps_step (k := State.setLinks_keeps _ _)
    | split

theorem State.punchCode_keeps (s : State) (c : Code) : keeps [.tracker, .punch] s (s.punchCode c) := by
  unfold State.punchCode
  try dsimp only
  repeat' first
    | with_reducible exact keeps_refl _ _
    | (show Block.within _ _ = true; rfl)
    | with_reducible apply keeps_step (k := State.modLog_keeps _ _)
    | with_reducible apply keeps_step (k := State.setPunch_keeps _ _)
    | split

theorem State.lateCode_keeps (s : State) (e : Event) : keeps [.tracker, .punch] s (s.lateCode e) := by
  unfold State.lateCode
  repeat' first
    | with_reducible exact keeps_refl _ _
    | with_reducible exact State.punchCode_keeps _ _
    | split

/-- No event without a serial names the held call. -/
theorem State.holdsCall_none (s : State) : s.holdsCall none = false := by
  unfold State.holdsCall
  cases s.tracker.call <;> rfl

/-- R118: a code is taken after an event only for the held call. -/
theorem State.lateCode_other (s : State) (e : Event) (h : s.holdsCall e.call = false) : s.lateCode e = s := by
  unfold State.lateCode
  split
  · simp [h]
  · rfl

/-- The taking of an event whose actions are for no call. -/
theorem State.takeEventNone_keeps (s : State) (d : Unseen) (e : Event) (h : e.call = none) :
    keeps [.printer, .store, .links] s (s.takeEvent d e) := by
  unfold State.takeEvent
  rw [State.lateCode_other _ e (by rw [h]; exact State.holdsCall_none _), h]
  exact keeps_foldl _ (fun t a => State.doAction_none_keeps t a) _ s

theorem State.takeEvent_keeps (s : State) (d : Unseen) (e : Event) :
    keeps [.liu, .tracker, .printer, .punch, .store, .answer, .links] s (s.takeEvent d e) := by
  unfold State.takeEvent
  exact keeps_step (keeps_foldl _ (fun t a => State.doAction_keeps t e.call a) _ s) (State.lateCode_keeps _ e) rfl

/-- A raised event waits in the matrix. -/
theorem State.raiseEvent_keeps (s : State) (e : Event) : keeps [.links] s (s.raiseEvent e) := State.setLinks_keeps _ _

theorem State.raise_keeps (s : State) (ev : BitVec 4) (serial : Option Nat) : keeps [.links] s (s.raise ev serial) :=
  s.raiseEvent_keeps _

theorem State.bellText_keeps (s : State) (c : Code) : keeps [.tracker, .punch, .links] s (s.bellText c) := by
  unfold State.bellText
  try dsimp only
  repeat' first
    | with_reducible exact keeps_refl _ _
    | (show Block.within _ _ = true; rfl)
    | with_reducible apply keeps_step (k := State.punchCode_keeps _ _)
    | with_reducible apply keeps_step (k := State.raise_keeps _ _ _)
    | with_reducible apply keeps_step (k := State.raiseEvent_keeps _ _)
    | with_reducible apply keeps_step (k := State.setLinks_keeps _ _)
    | split

theorem State.raiseNone_keeps (s : State) (ev : BitVec 4) : keeps [.links] s (s.raise ev none) := s.raise_keeps ev none

theorem State.raiseHigh_keeps (s : State) (allocated : Bool) : keeps [.links] s (s.raiseHigh allocated) := by
  unfold State.raiseHigh
  try dsimp only
  repeat' first
    | with_reducible exact keeps_refl _ _
    | (show Block.within _ _ = true; rfl)
    | with_reducible apply keeps_step (k := State.raiseNone_keeps _ _)
    | split

theorem State.settleEntry_keeps (s : State) (i : Nat) (o : CallOutcome) :
    keeps [.printer, .store, .links] s (s.settleEntry i o) := by
  unfold State.settleEntry
  try dsimp only
  repeat' first
    | with_reducible exact keeps_refl _ _
    | (show Block.within _ _ = true; rfl)
    | with_reducible apply keeps_step (k := State.setStore_keeps _ _)
    | with_reducible apply keeps_step (k := State.raiseNone_keeps _ _)
    | split

theorem State.endCollection_keeps (s : State) (c : Collection) :
    keeps [.printer, .store, .answer, .links] s (s.endCollection c) := by
  unfold State.endCollection
  try dsimp only
  repeat' first
    | with_reducible exact keeps_refl _ _
    | (show Block.within _ _ = true; rfl)
    | with_reducible apply keeps_step (k := State.setAnswer_keeps _ _)
    | with_reducible apply keeps_step (k := State.raiseNone_keeps _ _)
    | split

theorem State.deliveryResult_keeps (s : State) (c : Collection) (complete : Bool) :
    keeps [.store] s (s.deliveryResult c complete) := by
  unfold State.deliveryResult
  try dsimp only
  repeat' first
    | with_reducible exact keeps_refl _ _
    | (show Block.within _ _ = true; rfl)
    | with_reducible apply keeps_step (k := State.setStore_keeps _ _)
    | split

theorem State.deliverEnd_keeps (s : State) (r : JobResult) :
    keeps [.printer, .store, .answer, .links] s (s.deliverEnd r) := by
  unfold State.deliverEnd
  try dsimp only
  repeat' first
    | with_reducible exact keeps_refl _ _
    | (show Block.within _ _ = true; rfl)
    | with_reducible apply keeps_step (k := State.setAnswer_keeps _ _)
    | with_reducible apply keeps_step (k := State.endCollection_keeps _ _)
    | with_reducible apply keeps_step (k := State.deliveryResult_keeps _ _ _)
    | split

theorem State.jobEnd_keeps (s : State) (j : Job) (r : JobResult) :
    keeps [.kbd, .printer, .store, .answer, .links] s (s.jobEnd j r) := by
  unfold State.jobEnd
  try dsimp only
  repeat' first
    | with_reducible exact keeps_refl _ _
    | (show Block.within _ _ = true; rfl)
    | with_reducible apply keeps_step (k := State.settleEntry_keeps _ _ _)
    | with_reducible apply keeps_step (k := State.setKbd_keeps _ _)
    | with_reducible apply keeps_step (k := State.deliverEnd_keeps _ _)
    | split

theorem State.emptySlot_keeps (s : State) : keeps [.sender] s s.emptySlot := by
  unfold State.emptySlot
  try dsimp only
  repeat' first
    | with_reducible exact keeps_refl _ _
    | (show Block.within _ _ = true; rfl)
    | with_reducible apply keeps_step (k := State.setSender_keeps _ _)

theorem State.finishJob_keeps (s : State) (r : JobResult) :
    keeps [.sender, .kbd, .printer, .store, .answer, .links] s (s.finishJob r) := by
  unfold State.finishJob
  try dsimp only
  repeat' first
    | with_reducible exact keeps_refl _ _
    | (show Block.within _ _ = true; rfl)
    | with_reducible apply keeps_step (k := State.emptySlot_keeps _)
    | with_reducible apply keeps_step (k := State.jobEnd_keeps _ _ _)
    | split

theorem State.returnJob_keeps (s : State) :
    keeps [.sender, .kbd, .printer, .store, .answer, .links] s s.returnJob := by
  unfold State.returnJob
  try dsimp only
  repeat' first
    | with_reducible exact keeps_refl _ _
    | (show Block.within _ _ = true; rfl)
    | with_reducible apply keeps_step (k := State.finishJob_keeps _ _)
    | with_reducible apply keeps_step (k := State.setStore_keeps _ _)
    | with_reducible apply keeps_step (k := State.setKbd_keeps _ _)
    | with_reducible apply keeps_step (k := State.emptySlot_keeps _)
    | split

theorem State.contend_keeps (s : State) (j : Job) : keeps [.sender] s (s.contend j) := by
  unfold State.contend
  try dsimp only
  repeat' first
    | with_reducible exact keeps_refl _ _
    | (show Block.within _ _ = true; rfl)
    | with_reducible apply keeps_step (k := State.setSender_keeps _ _)

theorem State.takeObligation_keeps (s : State) (j : Job) : keeps [.sender] s (s.takeObligation j) := by
  unfold State.takeObligation
  try dsimp only
  repeat' first
    | with_reducible exact keeps_refl _ _
    | (show Block.within _ _ = true; rfl)
    | with_reducible apply keeps_step (k := State.setSender_keeps _ _)

theorem State.recontend_keeps (s : State) : keeps [.sender, .store] s s.recontend := by
  unfold State.recontend
  try dsimp only
  repeat' first
    | with_reducible exact keeps_refl _ _
    | (show Block.within _ _ = true; rfl)
    | with_reducible apply keeps_step (k := State.contend_keeps _ _)
    | with_reducible apply keeps_step (k := State.setStore_keeps _ _)
    | with_reducible apply keeps_step (k := State.emptySlot_keeps _)
    | split

theorem State.giveObligation_keeps (s : State) (j : Job) :
    keeps [.sender, .kbd, .printer, .store, .answer, .links] s (s.giveObligation j) := by
  unfold State.giveObligation
  try dsimp only
  repeat' first
    | with_reducible exact keeps_refl _ _
    | (show Block.within _ _ = true; rfl)
    | with_reducible apply keeps_step (k := State.returnJob_keeps _)
    | with_reducible apply keeps_step (k := State.setSender_keeps _ _)
    | with_reducible apply keeps_step (k := State.takeObligation_keeps _ _)
    | split

theorem State.lapsePending_keeps (s : State) :
    keeps [.sender, .kbd, .printer, .store, .answer, .links] s s.lapsePending := by
  unfold State.lapsePending
  try dsimp only
  repeat' first
    | with_reducible exact keeps_refl _ _
    | (show Block.within _ _ = true; rfl)
    | with_reducible apply keeps_step (k := State.setSender_keeps _ _)
    | with_reducible apply keeps_step (k := State.jobEnd_keeps _ _ _)
    | split

theorem State.endDeliver_keeps (s : State) (broken : Bool) :
    keeps [.tracker, .printer, .store, .answer] s (s.endDeliver broken) := by
  unfold State.endDeliver
  try dsimp only
  repeat' first
    | with_reducible exact keeps_refl _ _
    | (show Block.within _ _ = true; rfl)
    | with_reducible apply keeps_step (k := State.setStore_keeps _ _)
    | with_reducible apply keeps_step (k := State.setPrinter_keeps _ _)
    | with_reducible apply keeps_step (k := State.setAnswer_keeps _ _)
    | with_reducible apply keeps_step (k := State.modLog_keeps _ _)
    | split

theorem State.collectionCallEnd_keeps (s : State) (serial : Nat) :
    keeps [.printer, .store, .answer, .links] s (s.collectionCallEnd serial) := by
  unfold State.collectionCallEnd
  try dsimp only
  repeat' first
    | with_reducible exact keeps_refl _ _
    | (show Block.within _ _ = true; rfl)
    | with_reducible apply keeps_step (k := State.endCollection_keeps _ _)
    | with_reducible apply keeps_step (k := State.setAnswer_keeps _ _)
    | split

theorem State.callerCallEnd_keeps (s : State) (serial : Nat) (o : CallOutcome) :
    keeps [.sender, .kbd, .printer, .store, .answer, .links] s (s.callerCallEnd serial o) := by
  unfold State.callerCallEnd
  try dsimp only
  repeat' first
    | with_reducible exact keeps_refl _ _
    | (show Block.within _ _ = true; rfl)
    | with_reducible apply keeps_step (k := State.finishJob_keeps _ _)
    | with_reducible apply keeps_step (k := State.setSender_keeps _ _)
    | with_reducible apply keeps_step (k := State.setKbd_keeps _ _)
    | split

theorem State.endCall_keeps (s : State) (o : CallOutcome) :
    keeps [.liu, .sender, .tracker, .kbd, .printer, .punch, .store, .answer, .links] s (s.endCall o) := by
  unfold State.endCall
  try dsimp only
  repeat' first
    | with_reducible exact keeps_refl _ _
    | (show Block.within _ _ = true; rfl)
    | with_reducible apply keeps_step (k := State.settleEntry_keeps _ _ _)
    | with_reducible apply keeps_step (k := State.callerCallEnd_keeps _ _ _)
    | with_reducible apply keeps_step (k := State.setStore_keeps _ _)
    | with_reducible apply keeps_step (k := State.collectionCallEnd_keeps _ _)
    | with_reducible apply keeps_step (k := State.setPrinter_keeps _ _)
    | with_reducible apply keeps_step (k := State.endDeliver_keeps _ _)
    | with_reducible apply keeps_step (k := State.setAnswer_keeps _ _)
    | with_reducible apply keeps_step (k := State.setPunch_keeps _ _)
    | with_reducible apply keeps_step (k := State.raise_keeps _ _ _)
    | with_reducible apply keeps_step (k := State.setTracker_keeps _ _)
    | split

theorem State.endCallR63_keeps (s : State) :
    keeps [.liu, .sender, .tracker, .kbd, .printer, .punch, .store, .answer, .links] s s.endCallR63 := by
  unfold State.endCallR63
  try dsimp only
  repeat' first
    | with_reducible exact keeps_refl _ _
    | (show Block.within _ _ = true; rfl)
    | with_reducible apply keeps_step (k := State.endCall_keeps _ _)
    | split

theorem State.endJudging_keeps (s : State) :
    keeps [.liu, .sender, .tracker, .kbd, .printer, .punch, .store, .answer, .links] s s.endJudging := by
  unfold State.endJudging
  try dsimp only
  repeat' first
    | with_reducible exact keeps_refl _ _
    | (show Block.within _ _ = true; rfl)
    | with_reducible apply keeps_step (k := State.endCallR63_keeps _)
    | split

theorem State.tryDirect_keeps (s : State) (d : DispRecord) (t : State) (h : s.tryDirect d = some t) :
    keeps [.tracker, .printer, .answer] s t := by
  unfold State.tryDirect at h
  split at h
  · cases h
    exact keeps_step (keeps_mono (State.setPrinter_keeps _ _) rfl) (State.putDisp_keeps _ _) rfl
  · cases h

theorem State.trySpool_keeps (s : State) (d : DispRecord) :
    keeps [.tracker, .printer, .store, .answer, .links] s (s.trySpool d).1 := by
  unfold State.trySpool
  try dsimp only
  repeat' first
    | with_reducible exact keeps_refl _ _
    | (show Block.within _ _ = true; rfl)
    | with_reducible apply keeps_step (k := State.putDisp_keeps _ _)
    | with_reducible apply keeps_step (k := State.createReceived_keeps _ _ _)
    | with_reducible apply keeps_step (k := State.raiseHigh_keeps _ _)
    | split

theorem State.noPlace_keeps (s : State) (d : DispRecord) : keeps [.liu, .tracker, .answer] s (s.noPlace d) := by
  unfold State.noPlace
  try dsimp only
  repeat' first
    | with_reducible exact keeps_refl _ _
    | (show Block.within _ _ = true; rfl)
    | with_reducible apply keeps_step (k := State.putDisp_keeps _ _)
    | with_reducible apply keeps_step (k := State.requestBurst_keeps _)
    | split

theorem State.decide_keeps (s : State) (d : DispRecord) :
    keeps [.liu, .tracker, .printer, .store, .answer, .links] s (s.decide d) := by
  unfold State.decide
  dsimp only
  split
  · split
    · exact keeps_mono (State.trySpool_keeps s d) rfl
    · cases h : (s.trySpool d).1.tryDirect d with
      | none => exact keeps_step (keeps_mono (State.trySpool_keeps s d) rfl) (State.noPlace_keeps _ _) rfl
      | some t => exact keeps_step (keeps_mono (State.trySpool_keeps s d) rfl) (State.tryDirect_keeps _ _ t h) rfl
  · split
    · exact keeps_mono (State.tryDirect_keeps _ _ _ (by assumption)) rfl
    · split
      · exact keeps_mono (State.trySpool_keeps s d) rfl
      · exact keeps_step (keeps_mono (State.trySpool_keeps s d) rfl) (State.noPlace_keeps _ _) rfl

theorem State.refusalPoint_keeps (s : State) : keeps [.liu, .tracker, .answer] s s.refusalPoint := by
  unfold State.refusalPoint
  try dsimp only
  repeat' first
    | with_reducible exact keeps_refl _ _
    | (show Block.within _ _ = true; rfl)
    | with_reducible apply keeps_step (k := State.putDisp_keeps _ _)
    | with_reducible apply keeps_step (k := State.requestBurst_keeps _)
    | split

theorem State.decideWindow_keeps (s : State) :
    keeps [.liu, .tracker, .printer, .store, .answer, .links] s s.decideWindow := by
  unfold State.decideWindow
  try dsimp only
  repeat' first
    | with_reducible exact keeps_refl _ _
    | (show Block.within _ _ = true; rfl)
    | with_reducible apply keeps_step (k := State.decide_keeps _ _)
    | split

theorem State.spoolCell_keeps (s : State) (d : DispRecord) (c : Code) (err text : Bool) :
    keeps [.liu, .tracker, .printer, .store, .answer, .links] s (s.spoolCell d c err text) := by
  unfold State.spoolCell
  try dsimp only
  repeat' first
    | with_reducible exact keeps_refl _ _
    | (show Block.within _ _ = true; rfl)
    | with_reducible apply keeps_step (k := State.putDisp_keeps _ _)
    | with_reducible apply keeps_step (k := State.setStore_keeps _ _)
    | with_reducible apply keeps_step (k := State.raiseHigh_keeps _ _)
    | with_reducible apply keeps_step (k := State.loseRest_keeps _ _)
    | split

theorem State.spoolShift_keeps (s : State) :
    keeps [.liu, .tracker, .printer, .store, .answer, .links] s s.spoolShift := by
  unfold State.spoolShift
  try dsimp only
  repeat' first
    | with_reducible exact keeps_refl _ _
    | (show Block.within _ _ = true; rfl)
    | with_reducible apply keeps_step (k := State.spoolCell_keeps _ _ _ _ _)
    | split

theorem State.spoolCode_keeps (s : State) (c : Code) (err : Bool) :
    keeps [.liu, .tracker, .printer, .store, .answer, .links] s (s.spoolCode c err) := by
  unfold State.spoolCode
  try dsimp only
  repeat' first
    | with_reducible exact keeps_refl _ _
    | (show Block.within _ _ = true; rfl)
    | with_reducible apply keeps_step (k := State.spoolCell_keeps _ _ _ _ _)
    | with_reducible apply keeps_step (k := State.spoolShift_keeps _)
    | split

theorem State.printFull_keeps (s : State) (d : DispRecord) (c : Code) (err : Bool) :
    keeps [.liu, .tracker, .printer, .store, .answer, .links] s (s.printFull d c err) := by
  unfold State.printFull
  try dsimp only
  repeat' first
    | with_reducible exact keeps_refl _ _
    | (show Block.within _ _ = true; rfl)
    | with_reducible apply keeps_step (k := State.switchOver_keeps _ _)
    | with_reducible apply keeps_step (k := State.spoolCode_keeps _ _ _)
    | with_reducible apply keeps_step (k := State.raiseHigh_keeps _ _)

theorem State.passCode_keeps (s : State) (c : Code) (err : Bool) (k : Case) :
    keeps [.liu, .tracker, .printer, .store, .answer, .links] s (s.passCode c err k) := by
  unfold State.passCode
  try dsimp only
  repeat' first
    | with_reducible exact keeps_refl _ _
    | (show Block.within _ _ = true; rfl)
    | with_reducible apply keeps_step (k := State.putDisp_keeps _ _)
    | with_reducible apply keeps_step (k := State.spoolCode_keeps _ _ _)
    | with_reducible apply keeps_step (k := State.setPrinter_keeps _ _)
    | with_reducible apply keeps_step (k := State.printFull_keeps _ _ _ _)
    | split

theorem State.markDoubtful_keeps (s : State) : keeps [.tracker, .store] s s.markDoubtful := by
  unfold State.markDoubtful
  try dsimp only
  repeat' first
    | with_reducible exact keeps_refl _ _
    | (show Block.within _ _ = true; rfl)
    | with_reducible apply keeps_step (k := State.modLog_keeps _ _)
    | with_reducible apply keeps_step (k := State.setStore_keeps _ _)
    | split

theorem State.textStartPunch_keeps (s : State) : keeps [.tracker, .punch] s s.textStartPunch := by
  unfold State.textStartPunch
  try dsimp only
  repeat' first
    | with_reducible exact keeps_refl _ _
    | (show Block.within _ _ = true; rfl)
    | with_reducible apply keeps_step (k := State.claimPunch_keeps _)
    | split

theorem State.textStart_keeps (s : State) : keeps [.tracker, .punch] s s.textStart := by
  unfold State.textStart
  try dsimp only
  repeat' first
    | with_reducible exact keeps_refl _ _
    | (show Block.within _ _ = true; rfl)
    | with_reducible apply keeps_step (k := State.modCall_keeps _ _)
    | with_reducible apply keeps_step (k := State.textStartPunch_keeps _)
    | split

theorem State.dispTextStart_keeps (s : State) :
    keeps [.liu, .tracker, .printer, .store, .answer, .links] s s.dispTextStart := by
  unfold State.dispTextStart
  try dsimp only
  repeat' first
    | with_reducible exact keeps_refl _ _
    | (show Block.within _ _ = true; rfl)
    | with_reducible apply keeps_step (k := State.spoolCell_keeps _ _ _ _ _)
    | with_reducible apply keeps_step (k := State.putDisp_keeps _ _)
    | split

theorem State.enterText_keeps (s : State) :
    keeps [.liu, .listener, .tracker, .printer, .punch, .store, .answer, .links] s s.enterText := by
  unfold State.enterText
  try dsimp only
  repeat' first
    | with_reducible exact keeps_refl _ _
    | (show Block.within _ _ = true; rfl)
    | with_reducible apply keeps_step (k := State.textStart_keeps _)
    | with_reducible apply keeps_step (k := State.markDoubtful_keeps _)
    | with_reducible apply keeps_step (k := State.dispTextStart_keeps _)
    | with_reducible apply keeps_step (k := State.setListener_keeps _ _)
    | split

theorem State.giveDeliver_keeps (s : State) (c : Collection) (entry : Option Nat) :
    keeps [.sender, .kbd, .printer, .store, .answer, .links] s (s.giveDeliver c entry) := by
  unfold State.giveDeliver
  try dsimp only
  repeat' first
    | with_reducible exact keeps_refl _ _
    | (show Block.within _ _ = true; rfl)
    | with_reducible apply keeps_step (k := State.setAnswer_keeps _ _)
    | with_reducible apply keeps_step (k := State.setStore_keeps _ _)
    | with_reducible apply keeps_step (k := State.giveObligation_keeps _ _)
    | split

theorem State.collectionStep_keeps (s : State) (c : Collection) :
    keeps [.sender, .kbd, .printer, .store, .answer, .links] s (s.collectionStep c) := by
  unfold State.collectionStep
  try dsimp only
  repeat' first
    | with_reducible exact keeps_refl _ _
    | (show Block.within _ _ = true; rfl)
    | with_reducible apply keeps_step (k := State.endCollection_keeps _ _)
    | with_reducible apply keeps_step (k := State.giveDeliver_keeps _ _ _)
    | split

theorem State.beginCollection_keeps (s : State) :
    keeps [.sender, .kbd, .printer, .store, .answer, .links] s s.beginCollection := by
  unfold State.beginCollection
  try dsimp only
  repeat' first
    | with_reducible exact keeps_refl _ _
    | (show Block.within _ _ = true; rfl)
    | with_reducible apply keeps_step (k := State.collectionStep_keeps _ _)

theorem State.judgePoll_keeps (s : State) (codes : List Code) :
    keeps [.sender, .kbd, .printer, .store, .answer, .links] s (s.judgePoll codes) := by
  unfold State.judgePoll
  try dsimp only
  repeat' first
    | with_reducible exact keeps_refl _ _
    | (show Block.within _ _ = true; rfl)
    | with_reducible apply keeps_step (k := State.setAnswer_keeps _ _)
    | with_reducible apply keeps_step (k := State.beginCollection_keeps _)
    | split

theorem State.pollEnded_keeps (s : State) :
    keeps [.sender, .kbd, .printer, .store, .answer, .links] s s.pollEnded := by
  unfold State.pollEnded
  try dsimp only
  repeat' first
    | with_reducible exact keeps_refl _ _
    | (show Block.within _ _ = true; rfl)
    | with_reducible apply keeps_step (k := State.setAnswer_keeps _ _)
    | with_reducible apply keeps_step (k := State.judgePoll_keeps _ _)
    | split

theorem State.collectionRest_keeps (s : State) :
    keeps [.sender, .kbd, .printer, .store, .answer, .links] s s.collectionRest := by
  unfold State.collectionRest
  try dsimp only
  repeat' first
    | with_reducible exact keeps_refl _ _
    | (show Block.within _ _ = true; rfl)
    | with_reducible apply keeps_step (k := State.collectionStep_keeps _ _)
    | split

theorem State.giveAnswer_keeps (s : State) :
    keeps [.sender, .kbd, .printer, .store, .answer, .links] s s.giveAnswer := by
  unfold State.giveAnswer
  try dsimp only
  repeat' first
    | with_reducible exact keeps_refl _ _
    | (show Block.within _ _ = true; rfl)
    | with_reducible apply keeps_step (k := State.giveObligation_keeps _ _)
    | split

theorem State.takeJob_keeps (s : State) : keeps [.sender, .kbd, .store] s s.takeJob := by
  unfold State.takeJob
  try dsimp only
  repeat' first
    | with_reducible exact keeps_refl _ _
    | (show Block.within _ _ = true; rfl)
    | with_reducible apply keeps_step (k := State.contend_keeps _ _)
    | with_reducible apply keeps_step (k := State.takeObligation_keeps _ _)
    | with_reducible apply keeps_step (k := State.setKbd_keeps _ _)
    | with_reducible apply keeps_step (k := State.setStore_keeps _ _)
    | split

theorem State.startSending_keeps (s : State) (k : SendKind) : keeps [.liu, .sender] s (s.startSending k) := by
  unfold State.startSending
  try dsimp only
  repeat' first
    | with_reducible exact keeps_refl _ _
    | (show Block.within _ _ = true; rfl)
    | with_reducible apply keeps_step (k := State.setLiu_keeps _ _)
    | with_reducible apply keeps_step (k := State.setSender_keeps _ _)

theorem State.askStart_keeps (s : State) :
    keeps [.liu, .sender, .kbd, .printer, .store, .answer, .links] s s.askStart := by
  unfold State.askStart
  try dsimp only
  repeat' first
    | with_reducible exact keeps_refl _ _
    | (show Block.within _ _ = true; rfl)
    | with_reducible apply keeps_step (k := State.startSending_keeps _ _)
    | with_reducible apply keeps_step (k := State.returnJob_keeps _)
    | split

theorem State.handCode_keeps (s : State) (c : Code) (rest : List Code) :
    keeps [.liu, .sender] s (s.handCode c rest) := by
  unfold State.handCode
  try dsimp only
  repeat' first
    | with_reducible exact keeps_refl _ _
    | (show Block.within _ _ = true; rfl)
    | with_reducible apply keeps_step (k := State.setLiu_keeps _ _)
    | with_reducible apply keeps_step (k := State.setSender_keeps _ _)

theorem State.handHeader_keeps (s : State) (c : Code) (rest : List Code) :
    keeps [.liu, .sender] s (s.handHeader c rest) := by
  unfold State.handHeader
  try dsimp only
  repeat' first
    | with_reducible exact keeps_refl _ _
    | (show Block.within _ _ = true; rfl)
    | with_reducible apply keeps_step (k := State.setLiu_keeps _ _)
    | with_reducible apply keeps_step (k := State.setSender_keeps _ _)

theorem State.handHold_keeps (s : State) : keeps [.liu] s s.handHold := by
  unfold State.handHold
  try dsimp only
  repeat' first
    | with_reducible exact keeps_refl _ _
    | (show Block.within _ _ = true; rfl)
    | with_reducible apply keeps_step (k := State.setLiu_keeps _ _)

theorem State.enterStopping_keeps (s : State) : keeps [.liu, .sender] s s.enterStopping := by
  unfold State.enterStopping
  try dsimp only
  repeat' first
    | with_reducible exact keeps_refl _ _
    | (show Block.within _ _ = true; rfl)
    | with_reducible apply keeps_step (k := State.setSender_keeps _ _)
    | with_reducible apply keeps_step (k := State.handCode_keeps _ _ _)
    | split

theorem State.sendingSent_keeps (s : State) :
    keeps [.liu, .sender, .kbd, .printer, .store, .answer, .links] s s.sendingSent := by
  unfold State.sendingSent
  try dsimp only
  repeat' first
    | with_reducible exact keeps_refl _ _
    | (show Block.within _ _ = true; rfl)
    | with_reducible apply keeps_step (k := State.finishJob_keeps _ _)
    | with_reducible apply keeps_step (k := State.setLiu_keeps _ _)

theorem State.handKeyboard_keeps (s : State) : keeps [.liu, .sender, .kbd] s s.handKeyboard := by
  unfold State.handKeyboard
  try dsimp only
  repeat' first
    | with_reducible exact keeps_refl _ _
    | (show Block.within _ _ = true; rfl)
    | with_reducible apply keeps_step (k := State.enterStopping_keeps _)
    | with_reducible apply keeps_step (k := State.handHold_keeps _)
    | with_reducible apply keeps_step (k := State.setKbd_keeps _ _)
    | with_reducible apply keeps_step (k := State.handCode_keeps _ _ _)
    | split

theorem State.handCell_keeps (s : State) (i : Nat) : keeps [.liu, .sender, .store] s (s.handCell i) := by
  unfold State.handCell
  try dsimp only
  repeat' first
    | with_reducible exact keeps_refl _ _
    | (show Block.within _ _ = true; rfl)
    | with_reducible apply keeps_step (k := State.enterStopping_keeps _)
    | with_reducible apply keeps_step (k := State.setSender_keeps _ _)
    | with_reducible apply keeps_step (k := State.setStore_keeps _ _)
    | with_reducible apply keeps_step (k := State.handCode_keeps _ _ _)
    | split

theorem State.handList_keeps {bs : List Block} (s : State) (cs : List Code) (atEnd : State)
    (h : keeps bs s atEnd) (d : Block.within [.liu, .sender] bs = true) : keeps bs s (s.handList cs atEnd) := by
  unfold State.handList
  split
  · exact keeps_mono (keeps_step (keeps_mono (State.setSender_keeps _ _) rfl) (State.handCode_keeps _ _ _) rfl) d
  · exact h

theorem State.handText_keeps (s : State) :
    keeps [.liu, .sender, .kbd, .printer, .store, .answer, .links] s s.handText := by
  unfold State.handText
  split
  · exact keeps_mono (State.handCode_keeps _ _ _) rfl
  split
  · exact keeps_mono (State.handHold_keeps _) rfl
  split
  · exact keeps_mono (State.handKeyboard_keeps _) rfl
  · exact keeps_mono (State.handCell_keeps _ _) rfl
  · exact keeps_mono (State.enterStopping_keeps _) rfl
  · exact State.handList_keeps _ _ _ (keeps_mono (State.sendingSent_keeps _) rfl) rfl
  · exact State.handList_keeps _ _ _ (keeps_mono (State.enterStopping_keeps _) rfl) rfl

theorem State.enterSendText_keeps (s : State) :
    keeps [.liu, .sender, .kbd, .printer, .store, .answer, .links] s s.enterSendText := by
  unfold State.enterSendText
  try dsimp only
  repeat' first
    | with_reducible exact keeps_refl _ _
    | (show Block.within _ _ = true; rfl)
    | with_reducible apply keeps_step (k := State.handText_keeps _)
    | with_reducible apply keeps_step (k := State.setSender_keeps _ _)

theorem State.checkHeader_keeps (s : State) :
    keeps [.liu, .sender, .kbd, .printer, .store, .answer, .links] s s.checkHeader := by
  unfold State.checkHeader
  try dsimp only
  repeat' first
    | with_reducible exact keeps_refl _ _
    | (show Block.within _ _ = true; rfl)
    | with_reducible apply keeps_step (k := State.finishJob_keeps _ _)
    | with_reducible apply keeps_step (k := State.setLiu_keeps _ _)
    | with_reducible apply keeps_step (k := State.enterSendText_keeps _)
    | with_reducible apply keeps_step (k := State.setSender_keeps _ _)
    | with_reducible apply keeps_step (k := State.recontend_keeps _)
    | with_reducible apply keeps_step (k := State.handHold_keeps _)
    | split

theorem State.enterHeader_keeps (s : State) : keeps [.liu, .sender] s s.enterHeader := by
  unfold State.enterHeader
  try dsimp only
  repeat' first
    | with_reducible exact keeps_refl _ _
    | (show Block.within _ _ = true; rfl)
    | with_reducible apply keeps_step (k := State.setSender_keeps _ _)
    | with_reducible apply keeps_step (k := State.handHeader_keeps _ _ _)
    | split

theorem State.holdEnded_keeps (s : State) :
    keeps [.liu, .sender, .kbd, .printer, .store, .answer, .links] s s.holdEnded := by
  unfold State.holdEnded
  try dsimp only
  repeat' first
    | with_reducible exact keeps_refl _ _
    | (show Block.within _ _ = true; rfl)
    | with_reducible apply keeps_step (k := State.handText_keeps _)
    | with_reducible apply keeps_step (k := State.setSender_keeps _ _)
    | split

theorem State.enterYield_keeps (s : State) : keeps [.liu, .sender] s s.enterYield := by
  unfold State.enterYield
  try dsimp only
  repeat' first
    | with_reducible exact keeps_refl _ _
    | (show Block.within _ _ = true; rfl)
    | with_reducible apply keeps_step (k := State.setLiu_keeps _ _)
    | with_reducible apply keeps_step (k := State.setSender_keeps _ _)

theorem State.handNext_keeps (s : State) (hold : Bool) :
    keeps [.liu, .sender, .kbd, .printer, .store, .answer, .links] s (s.handNext hold) := by
  unfold State.handNext
  try dsimp only
  repeat' first
    | with_reducible exact keeps_refl _ _
    | (show Block.within _ _ = true; rfl)
    | with_reducible apply keeps_step (k := State.checkHeader_keeps _)
    | with_reducible apply keeps_step (k := State.setSender_keeps _ _)
    | with_reducible apply keeps_step (k := State.enterYield_keeps _)
    | with_reducible apply keeps_step (k := State.sendingSent_keeps _)
    | with_reducible apply keeps_step (k := State.handText_keeps _)
    | with_reducible apply keeps_step (k := State.handCode_keeps _ _ _)
    | with_reducible apply keeps_step (k := State.handHeader_keeps _ _ _)
    | with_reducible apply keeps_step (k := State.setLiu_keeps _ _)
    | with_reducible apply keeps_step (k := State.enterSendText_keeps _)
    | with_reducible apply keeps_step (k := State.enterHeader_keeps _)
    | with_reducible apply keeps_step (k := State.holdEnded_keeps _)
    | with_reducible apply keeps_step (k := State.handHold_keeps _)
    | split

theorem State.ownHold_keeps (s : State) : keeps [.liu] s s.ownHold := by
  unfold State.ownHold
  try dsimp only
  repeat' first
    | with_reducible exact keeps_refl _ _
    | (show Block.within _ _ = true; rfl)
    | with_reducible apply keeps_step (k := State.handHold_keeps _)
    | split

theorem State.elementEnd_keeps (s : State) :
    keeps [.liu, .sender, .kbd, .printer, .store, .answer, .links] s s.elementEnd := by
  unfold State.elementEnd
  try dsimp only
  repeat' first
    | with_reducible exact keeps_refl _ _
    | (show Block.within _ _ = true; rfl)
    | with_reducible apply keeps_step (k := State.ownHold_keeps _)
    | with_reducible apply keeps_step (k := State.setLiu_keeps _ _)
    | with_reducible apply keeps_step (k := State.handNext_keeps _ _)
    | split

theorem State.awaitStopping_keeps (s : State) : keeps [.sender] s s.awaitStopping := by
  unfold State.awaitStopping
  try dsimp only
  repeat' first
    | with_reducible exact keeps_refl _ _
    | (show Block.within _ _ = true; rfl)
    | with_reducible apply keeps_step (k := State.setSender_keeps _ _)

theorem State.holdTimeout_keeps (s : State) : keeps [.liu, .sender, .tracker] s s.holdTimeout := by
  unfold State.holdTimeout
  try dsimp only
  repeat' first
    | with_reducible exact keeps_refl _ _
    | (show Block.within _ _ = true; rfl)
    | with_reducible apply keeps_step (k := State.enterStopping_keeps _)
    | with_reducible apply keeps_step (k := State.modLog_keeps _ _)
    | with_reducible apply keeps_step (k := State.awaitStopping_keeps _)
    | split

theorem State.collisionStop_keeps (s : State) : keeps [.liu, .sender] s s.collisionStop := by
  unfold State.collisionStop
  try dsimp only
  repeat' first
    | with_reducible exact keeps_refl _ _
    | (show Block.within _ _ = true; rfl)
    | with_reducible apply keeps_step (k := State.setLiu_keeps _ _)
    | with_reducible apply keeps_step (k := State.setSender_keeps _ _)
    | split

theorem State.classifyBreak_keeps (s : State) :
    keeps [.sender, .kbd, .printer, .store, .answer, .links] s s.classifyBreak := by
  unfold State.classifyBreak
  try dsimp only
  repeat' first
    | with_reducible exact keeps_refl _ _
    | (show Block.within _ _ = true; rfl)
    | with_reducible apply keeps_step (k := State.finishJob_keeps _ _)
    | split

theorem State.classifyWatch_keeps (s : State) :
    keeps [.liu, .sender, .tracker, .kbd, .printer, .punch, .store, .answer, .links] s s.classifyWatch := by
  unfold State.classifyWatch
  try dsimp only
  repeat' first
    | with_reducible exact keeps_refl _ _
    | (show Block.within _ _ = true; rfl)
    | with_reducible apply keeps_step (k := State.finishJob_keeps _ _)
    | with_reducible apply keeps_step (k := State.recontend_keeps _)
    | with_reducible apply keeps_step (k := State.endCall_keeps _ _)
    | split

theorem State.senderBreak_keeps (s : State) :
    keeps [.liu, .sender, .kbd, .printer, .store, .answer, .links] s s.senderBreak := by
  unfold State.senderBreak
  try dsimp only
  repeat' first
    | with_reducible exact keeps_refl _ _
    | (show Block.within _ _ = true; rfl)
    | with_reducible apply keeps_step (k := State.setLiu_keeps _ _)
    | with_reducible apply keeps_step (k := State.setSender_keeps _ _)
    | with_reducible apply keeps_step (k := State.classifyBreak_keeps _)
    | split

theorem State.senderFault_keeps (s : State) :
    keeps [.sender, .kbd, .printer, .store, .answer, .links] s s.senderFault := by
  unfold State.senderFault
  try dsimp only
  repeat' first
    | with_reducible exact keeps_refl _ _
    | (show Block.within _ _ = true; rfl)
    | with_reducible apply keeps_step (k := State.returnJob_keeps _)
    | with_reducible apply keeps_step (k := State.finishJob_keeps _ _)
    | split

theorem State.senderRestEnded_keeps (s : State) :
    keeps [.sender, .kbd, .printer, .store, .answer, .links] s s.senderRestEnded := by
  unfold State.senderRestEnded
  try dsimp only
  repeat' first
    | with_reducible exact keeps_refl _ _
    | (show Block.within _ _ = true; rfl)
    | with_reducible apply keeps_step (k := State.finishJob_keeps _ _)
    | with_reducible apply keeps_step (k := State.lapsePending_keeps _)
    | with_reducible apply keeps_step (k := State.setSender_keeps _ _)
    | split

theorem State.breakKey_keeps (s : State) :
    keeps [.liu, .sender, .tracker, .kbd, .printer, .punch, .store, .answer, .links] s s.breakKey := by
  unfold State.breakKey
  try dsimp only
  repeat' first
    | with_reducible exact keeps_refl _ _
    | (show Block.within _ _ = true; rfl)
    | with_reducible apply keeps_step (k := State.finishJob_keeps _ _)
    | with_reducible apply keeps_step (k := State.setLiu_keeps _ _)
    | with_reducible apply keeps_step (k := State.requestBurst_keeps _)
    | with_reducible apply keeps_step (k := State.endCall_keeps _ _)
    | split

theorem State.trackError_keeps (s : State) : keeps [.tracker, .store] s s.trackError := by
  unfold State.trackError
  try dsimp only
  repeat' first
    | with_reducible exact keeps_refl _ _
    | (show Block.within _ _ = true; rfl)
    | with_reducible apply keeps_step (k := State.markDoubtful_keeps _)
    | with_reducible apply keeps_step (k := State.modLog_keeps _ _)
    | with_reducible apply keeps_step (k := State.setTracker_keeps _ _)
    | split

theorem State.errorEvent_keeps (s : State) : keeps [.quality, .tracker, .store, .port] s s.errorEvent := by
  unfold State.errorEvent
  try dsimp only
  repeat' first
    | with_reducible exact keeps_refl _ _
    | (show Block.within _ _ = true; rfl)
    | with_reducible apply keeps_step (k := State.setPort_keeps _ _)
    | with_reducible apply keeps_step (k := State.setQuality_keeps _ _)
    | with_reducible apply keeps_step (k := State.trackError_keeps _)

theorem State.trackDistortion_keeps (s : State) (d : Nat) : keeps [.tracker] s (s.trackDistortion d) := by
  unfold State.trackDistortion
  try dsimp only
  repeat' first
    | with_reducible exact keeps_refl _ _
    | (show Block.within _ _ = true; rfl)
    | with_reducible apply keeps_step (k := State.modLog_keeps _ _)
    | with_reducible apply keeps_step (k := State.setTracker_keeps _ _)
    | split

theorem State.tieJob_keeps (s : State) (serial : Nat) : keeps [.sender, .store] s (s.tieJob serial) := by
  unfold State.tieJob
  try dsimp only
  repeat' first
    | with_reducible exact keeps_refl _ _
    | (show Block.within _ _ = true; rfl)
    | with_reducible apply keeps_step (k := State.setSender_keeps _ _)
    | with_reducible apply keeps_step (k := State.setStore_keeps _ _)
    | split

theorem State.openCall_keeps (s : State) (role : Role) (origin : StationCode) (kind : CallKind) (dest : StationCode) :
    keeps [.liu, .sender, .tracker, .kbd, .printer, .punch, .store, .answer, .links] s (s.openCall role origin kind dest) := by
  unfold State.openCall
  try dsimp only
  repeat' first
    | with_reducible exact keeps_refl _ _
    | (show Block.within _ _ = true; rfl)
    | with_reducible apply keeps_step (k := State.setAnswer_keeps _ _)
    | with_reducible apply keeps_step (k := State.endCallR63_keeps _)
    | with_reducible apply keeps_step (k := State.tieJob_keeps _ _)
    | with_reducible apply keeps_step (k := State.setPunch_keeps _ _)
    | with_reducible apply keeps_step (k := State.raise_keeps _ _ _)
    | with_reducible apply keeps_step (k := State.setTracker_keeps _ _)
    | split

theorem State.outside_keeps (s : State) :
    keeps [.liu, .sender, .tracker, .kbd, .printer, .punch, .store, .answer, .links] s s.outside := by
  unfold State.outside
  try dsimp only
  repeat' first
    | with_reducible exact keeps_refl _ _
    | (show Block.within _ _ = true; rfl)
    | with_reducible apply keeps_step (k := State.setTracker_keeps _ _)
    | with_reducible apply keeps_step (k := State.endJudging_keeps _)

theorem State.openingHeader_keeps (s : State) (origin : StationCode) (kind : CallKind) (dest : StationCode) :
    keeps [.liu, .sender, .tracker, .kbd, .printer, .punch, .store, .answer, .links] s (s.openingHeader origin kind dest) := by
  unfold State.openingHeader
  try dsimp only
  repeat' first
    | with_reducible exact keeps_refl _ _
    | (show Block.within _ _ = true; rfl)
    | with_reducible apply keeps_step (k := State.openCall_keeps _ _ _ _ _)
    | with_reducible apply keeps_step (k := State.outside_keeps _)
    | split

theorem State.yieldAnswered_keeps (s : State) : keeps [.sender] s s.yieldAnswered := by
  unfold State.yieldAnswered
  try dsimp only
  repeat' first
    | with_reducible exact keeps_refl _ _
    | (show Block.within _ _ = true; rfl)
    | with_reducible apply keeps_step (k := State.setSender_keeps _ _)
    | split

theorem State.deliverHeader_keeps (s : State) (origin dest : StationCode) :
    keeps [.liu, .tracker, .printer, .store, .answer, .links] s (s.deliverHeader origin dest) := by
  unfold State.deliverHeader
  try dsimp only
  repeat' first
    | with_reducible exact keeps_refl _ _
    | (show Block.within _ _ = true; rfl)
    | with_reducible apply keeps_step (k := State.decide_keeps _ _)
    | split

theorem State.fittingHeader_keeps (s : State) (origin : StationCode) (kind : SendKind) (dest : StationCode) :
    keeps [.liu, .sender, .tracker, .printer, .store, .answer, .links] s (s.fittingHeader origin kind dest) := by
  unfold State.fittingHeader
  try dsimp only
  repeat' first
    | with_reducible exact keeps_refl _ _
    | (show Block.within _ _ = true; rfl)
    | with_reducible apply keeps_step (k := State.deliverHeader_keeps _ _ _)
    | with_reducible apply keeps_step (k := State.modCall_keeps _ _)
    | with_reducible apply keeps_step (k := State.yieldAnswered_keeps _)
    | with_reducible apply keeps_step (k := State.setTracker_keeps _ _)
    | split

theorem State.followingHeader_keeps (s : State) (origin : StationCode) (kind : SendKind) (dest : StationCode) :
    keeps [.liu, .sender, .tracker, .kbd, .printer, .punch, .store, .answer, .links] s (s.followingHeader origin kind dest) := by
  unfold State.followingHeader
  try dsimp only
  repeat' first
    | with_reducible exact keeps_refl _ _
    | (show Block.within _ _ = true; rfl)
    | with_reducible apply keeps_step (k := State.outside_keeps _)
    | with_reducible apply keeps_step (k := State.fittingHeader_keeps _ _ _ _)
    | split

theorem State.headerResult_keeps (s : State) (h : Hdr) :
    keeps [.liu, .sender, .listener, .tracker, .kbd, .printer, .punch, .store, .answer, .links] s (s.headerResult h) := by
  unfold State.headerResult
  try dsimp only
  repeat' first
    | with_reducible exact keeps_refl _ _
    | (show Block.within _ _ = true; rfl)
    | with_reducible apply keeps_step (k := State.followingHeader_keeps _ _ _ _)
    | with_reducible apply keeps_step (k := State.setListener_keeps _ _)
    | with_reducible apply keeps_step (k := State.openingHeader_keeps _ _ _ _)
    | with_reducible apply keeps_step (k := State.outside_keeps _)
    | with_reducible apply keeps_step (k := State.enterText_keeps _)
    | split

theorem State.gatherPoll_keeps (s : State) (c : Code) (err : Bool) : keeps [.answer] s (s.gatherPoll c err) := by
  unfold State.gatherPoll
  try dsimp only
  repeat' first
    | with_reducible exact keeps_refl _ _
    | (show Block.within _ _ = true; rfl)
    | with_reducible apply keeps_step (k := State.setAnswer_keeps _ _)
    | split

theorem State.dispEom_keeps (s : State) (eom : Bool) : keeps [.answer] s (s.dispEom eom) := by
  unfold State.dispEom
  try dsimp only
  repeat' first
    | with_reducible exact keeps_refl _ _
    | (show Block.within _ _ = true; rfl)
    | with_reducible apply keeps_step (k := State.setAnswer_keeps _ _)

theorem State.wruHeard_keeps (s : State) : keeps [.answer] s s.wruHeard := by
  unfold State.wruHeard
  try dsimp only
  repeat' first
    | with_reducible exact keeps_refl _ _
    | (show Block.within _ _ = true; rfl)
    | with_reducible apply keeps_step (k := State.setAnswer_keeps _ _)
    | split

theorem State.callText_keeps (s : State) (c : Code) (err : Bool) (k : Case) (fn : Option TextFn) :
    keeps [.liu, .tracker, .printer, .punch, .store, .answer, .links] s (s.callText c err k fn) := by
  unfold State.callText
  try dsimp only
  repeat' first
    | with_reducible exact keeps_refl _ _
    | (show Block.within _ _ = true; rfl)
    | with_reducible apply keeps_step (k := State.punchCode_keeps _ _)
    | with_reducible apply keeps_step (k := State.dispEom_keeps _ _)
    | with_reducible apply keeps_step (k := State.modCall_keeps _ _)
    | with_reducible apply keeps_step (k := State.passCode_keeps _ _ _ _)
    | with_reducible apply keeps_step (k := State.bellText_keeps _ _)
    | with_reducible apply keeps_step (k := State.wruHeard_keeps _)
    | with_reducible apply keeps_step (k := State.gatherPoll_keeps _ _ _)
    | split

theorem State.textChar_keeps (s : State) (c : Code) (err : Bool) :
    keeps [.liu, .listener, .tracker, .printer, .punch, .store, .answer, .links] s (s.textChar c err) := by
  unfold State.textChar
  try dsimp only
  repeat' first
    | with_reducible exact keeps_refl _ _
    | (show Block.within _ _ = true; rfl)
    | with_reducible apply keeps_step (k := State.callText_keeps _ _ _ _ _)
    | with_reducible apply keeps_step (k := State.setListener_keeps _ _)
    | split

theorem State.markElement_keeps (s : State) : keeps [.listener] s s.markElement := by
  unfold State.markElement
  try dsimp only
  repeat' first
    | with_reducible exact keeps_refl _ _
    | (show Block.within _ _ = true; rfl)
    | with_reducible apply keeps_step (k := State.setListener_keeps _ _)
    | split

theorem State.giveRefusalPoint_keeps (s : State) :
    keeps [.liu, .listener, .tracker, .answer] s s.giveRefusalPoint := by
  unfold State.giveRefusalPoint
  try dsimp only
  repeat' first
    | with_reducible exact keeps_refl _ _
    | (show Block.within _ _ = true; rfl)
    | with_reducible apply keeps_step (k := State.refusalPoint_keeps _)
    | with_reducible apply keeps_step (k := State.setListener_keeps _ _)
    | split

theorem State.giveWindowEnd_keeps (s : State) :
    keeps [.liu, .listener, .tracker, .printer, .punch, .store, .answer, .links] s s.giveWindowEnd := by
  unfold State.giveWindowEnd
  try dsimp only
  repeat' first
    | with_reducible exact keeps_refl _ _
    | (show Block.within _ _ = true; rfl)
    | with_reducible apply keeps_step (k := State.enterText_keeps _)
    | with_reducible apply keeps_step (k := State.decideWindow_keeps _)
    | split

theorem State.earlyChar_keeps (s : State) (c : Code) (err : Bool) :
    keeps [.liu, .listener, .tracker, .printer, .punch, .store, .answer, .links] s (s.earlyChar c err) := by
  unfold State.earlyChar
  try dsimp only
  repeat' first
    | with_reducible exact keeps_refl _ _
    | (show Block.within _ _ = true; rfl)
    | with_reducible apply keeps_step (k := State.giveRefusalPoint_keeps _)
    | with_reducible apply keeps_step (k := State.giveWindowEnd_keeps _)
    | with_reducible apply keeps_step (k := State.textChar_keeps _ _ _)
    | split

theorem State.character_keeps (s : State) (c : Code) (err : Bool) :
    keeps [.liu, .sender, .listener, .tracker, .kbd, .printer, .punch, .store, .answer, .links] s (s.character c err) := by
  unfold State.character
  try dsimp only
  repeat' first
    | with_reducible exact keeps_refl _ _
    | (show Block.within _ _ = true; rfl)
    | with_reducible apply keeps_step (k := State.earlyChar_keeps _ _ _)
    | with_reducible apply keeps_step (k := State.textChar_keeps _ _ _)
    | with_reducible apply keeps_step (k := State.headerResult_keeps _ _)
    | with_reducible apply keeps_step (k := State.setListener_keeps _ _)
    | split

theorem State.leadIn_keeps (s : State) : keeps [.listener, .tracker, .kbd, .answer] s s.leadIn := by
  unfold State.leadIn
  try dsimp only
  repeat' first
    | with_reducible exact keeps_refl _ _
    | (show Block.within _ _ = true; rfl)
    | with_reducible apply keeps_step (k := State.wake_keeps _)
    | with_reducible apply keeps_step (k := State.setListener_keeps _ _)
    | with_reducible apply keeps_step (k := State.setTracker_keeps _ _)
    | split

theorem State.unframed_keeps (s : State) :
    keeps [.liu, .sender, .listener, .tracker, .kbd, .printer, .punch, .store, .answer, .links] s s.unframed := by
  unfold State.unframed
  try dsimp only
  repeat' first
    | with_reducible exact keeps_refl _ _
    | (show Block.within _ _ = true; rfl)
    | with_reducible apply keeps_step (k := State.outside_keeps _)
    | with_reducible apply keeps_step (k := State.setListener_keeps _ _)
    | split

theorem State.report_keeps (s : State) (r : Report) :
    keeps [.liu, .quality, .sender, .listener, .tracker, .kbd, .printer, .punch, .store, .answer, .links, .port] s (s.report r) := by
  cases r <;> unfold State.report
  · exact keeps_mono (State.leadIn_keeps s) rfl
  · exact keeps_mono (State.unframed_keeps s) rfl
  · exact keeps_mono (State.markElement_keeps s) rfl
  · exact keeps_mono (State.errorEvent_keeps s) rfl
  · exact keeps_step (keeps_mono (State.trackDistortion_keeps s _) rfl) (State.character_keeps _ _ _) rfl

theorem State.restEnded_keeps (s : State) :
    keeps [.liu, .sender, .listener, .tracker, .kbd, .printer, .store, .answer, .links] s s.restEnded := by
  unfold State.restEnded
  try dsimp only
  repeat' first
    | with_reducible exact keeps_refl _ _
    | (show Block.within _ _ = true; rfl)
    | with_reducible apply keeps_step (k := State.senderRestEnded_keeps _)
    | with_reducible apply keeps_step (k := State.setLiu_keeps _ _)
    | with_reducible apply keeps_step (k := State.modCall_keeps _ _)
    | with_reducible apply keeps_step (k := State.setListener_keeps _ _)
    | split

theorem State.listenerEnd_keeps (s : State) (broken : Bool) :
    keeps [.listener, .tracker, .printer, .store, .answer] s (s.listenerEnd broken) := by
  unfold State.listenerEnd
  try dsimp only
  repeat' first
    | with_reducible exact keeps_refl _ _
    | (show Block.within _ _ = true; rfl)
    | with_reducible apply keeps_step (k := State.endDeliver_keeps _ _)
    | with_reducible apply keeps_step (k := State.setListener_keeps _ _)
    | with_reducible apply keeps_step (k := State.setTracker_keeps _ _)
    | split

theorem State.callRest_keeps (s : State) :
    keeps [.liu, .sender, .tracker, .kbd, .printer, .punch, .store, .answer, .links] s s.callRest := by
  unfold State.callRest
  try dsimp only
  repeat' first
    | with_reducible exact keeps_refl _ _
    | (show Block.within _ _ = true; rfl)
    | with_reducible apply keeps_step (k := State.endCallR63_keeps _)
    | with_reducible apply keeps_step (k := State.modCall_keeps _ _)
    | split

theorem State.answerRest_keeps (s : State) (poll : Bool) :
    keeps [.sender, .kbd, .printer, .store, .answer, .links] s (s.answerRest poll) := by
  unfold State.answerRest
  try dsimp only
  repeat' first
    | with_reducible exact keeps_refl _ _
    | (show Block.within _ _ = true; rfl)
    | with_reducible apply keeps_step (k := State.setAnswer_keeps _ _)
    | with_reducible apply keeps_step (k := State.pollEnded_keeps _)
    | with_reducible apply keeps_step (k := State.collectionRest_keeps _)
    | with_reducible apply keeps_step (k := State.giveAnswer_keeps _)
    | split

theorem State.restRecognised_keeps (s : State) :
    keeps [.liu, .framer, .sender, .listener, .tracker, .kbd, .printer, .punch, .store, .answer, .links] s s.restRecognised := by
  unfold State.restRecognised
  try dsimp only
  repeat' first
    | with_reducible exact keeps_refl _ _
    | (show Block.within _ _ = true; rfl)
    | with_reducible apply keeps_step (k := State.setLiu_keeps _ _)
    | with_reducible apply keeps_step (k := State.classifyWatch_keeps _)
    | with_reducible apply keeps_step (k := State.callRest_keeps _)
    | with_reducible apply keeps_step (k := State.setFramer_keeps _ _)
    | with_reducible apply keeps_step (k := State.answerRest_keeps _ _)
    | with_reducible apply keeps_step (k := State.listenerEnd_keeps _ _)
    | split

theorem State.callBreak_keeps (s : State) :
    keeps [.liu, .sender, .tracker, .kbd, .printer, .punch, .store, .answer, .links] s s.callBreak := by
  unfold State.callBreak
  try dsimp only
  repeat' first
    | with_reducible exact keeps_refl _ _
    | (show Block.within _ _ = true; rfl)
    | with_reducible apply keeps_step (k := State.endCallR63_keeps _)
    | with_reducible apply keeps_step (k := State.endCall_keeps _ _)
    | split

theorem State.answerCut_keeps (s : State) : keeps [.answer] s s.answerCut := by
  unfold State.answerCut
  try dsimp only
  repeat' first
    | with_reducible exact keeps_refl _ _
    | (show Block.within _ _ = true; rfl)
    | with_reducible apply keeps_step (k := State.setAnswer_keeps _ _)

theorem State.breakSeen_keeps (s : State) :
    keeps [.liu, .framer, .gauge, .sender, .listener, .tracker, .kbd, .printer, .punch, .store, .answer, .links] s s.breakSeen := by
  unfold State.breakSeen
  try dsimp only
  repeat' first
    | with_reducible exact keeps_refl _ _
    | (show Block.within _ _ = true; rfl)
    | with_reducible apply keeps_step (k := State.setLiu_keeps _ _)
    | with_reducible apply keeps_step (k := State.setGauge_keeps _ _)
    | with_reducible apply keeps_step (k := State.senderBreak_keeps _)
    | with_reducible apply keeps_step (k := State.answerCut_keeps _)
    | with_reducible apply keeps_step (k := State.endDeliver_keeps _ _)
    | with_reducible apply keeps_step (k := State.callBreak_keeps _)
    | with_reducible apply keeps_step (k := State.raiseNone_keeps _ _)
    | with_reducible apply keeps_step (k := State.setFramer_keeps _ _)
    | with_reducible apply keeps_step (k := State.listenerEnd_keeps _ _)
    | split

theorem State.frameSample_keeps (s : State) (x : Level) :
    keeps [.liu, .framer, .gauge, .quality, .sender, .listener, .tracker, .kbd, .printer, .punch, .store, .answer, .links, .port] s (s.frameSample x) := by
  unfold State.frameSample
  dsimp only
  refine keeps_trans ?_ (keeps_foldl _ (fun t a => keeps_mono (State.report_keeps t a) rfl) _ _)
  exact keeps_step (keeps_mono (State.setFramer_keeps _ _) rfl) (State.setGauge_keeps _ _) rfl

theorem State.standDown_keeps (s : State) :
    keeps [.liu, .framer, .gauge, .quality, .sender, .listener, .tracker, .kbd, .printer, .punch, .store, .answer, .links, .port] s s.standDown := by
  unfold State.standDown
  try dsimp only
  repeat' first
    | with_reducible exact keeps_refl _ _
    | (show Block.within _ _ = true; rfl)
    | with_reducible apply keeps_step (k := State.frameSample_keeps _ _)
    | with_reducible apply keeps_step (k := State.setGauge_keeps _ _)
    | with_reducible apply keeps_step (k := State.setFramer_keeps _ _)
    | split

theorem State.lineFault_keeps (s : State) :
    keeps [.liu, .framer, .gauge, .quality, .sender, .listener, .tracker, .kbd, .printer, .punch, .store, .answer, .links, .port] s s.lineFault := by
  unfold State.lineFault
  try dsimp only
  repeat' first
    | with_reducible exact keeps_refl _ _
    | (show Block.within _ _ = true; rfl)
    | with_reducible apply keeps_step (k := State.restEnded_keeps _)
    | with_reducible apply keeps_step (k := State.listenerEnd_keeps _ _)
    | with_reducible apply keeps_step (k := State.setLiu_keeps _ _)
    | with_reducible apply keeps_step (k := State.answerCut_keeps _)
    | with_reducible apply keeps_step (k := State.senderFault_keeps _)
    | with_reducible apply keeps_step (k := State.endCall_keeps _ _)
    | with_reducible apply keeps_step (k := State.standDown_keeps _)
    | split

theorem State.driveSample_keeps (s : State) (x : Level) : keeps [.liu, .sender] s (s.driveSample x) := by
  unfold State.driveSample
  try dsimp only
  repeat' first
    | with_reducible exact keeps_refl _ _
    | (show Block.within _ _ = true; rfl)
    | with_reducible apply keeps_step (k := State.setLiu_keeps _ _)
    | with_reducible apply keeps_step (k := State.setSender_keeps _ _)
    | with_reducible apply keeps_step (k := State.collisionStop_keeps _)
    | split

theorem State.sampleLine_keeps (s : State) (rxP rxN : Bool) :
    keeps [.liu, .framer, .gauge, .quality, .sender, .listener, .tracker, .kbd, .printer, .punch, .store, .answer, .links, .port] s (s.sampleLine rxP rxN) := by
  unfold State.sampleLine
  try dsimp only
  repeat' first
    | with_reducible exact keeps_refl _ _
    | (show Block.within _ _ = true; rfl)
    | with_reducible apply keeps_step (k := State.restEnded_keeps _)
    | with_reducible apply keeps_step (k := State.frameSample_keeps _ _)
    | with_reducible apply keeps_step (k := State.setLiu_keeps _ _)
    | with_reducible apply keeps_step (k := State.lineFault_keeps _)
    | with_reducible apply keeps_step (k := State.driveSample_keeps _ _)
    | split

theorem State.elementTick_keeps (s : State) : keeps [.liu, .quality] s s.elementTick := by
  unfold State.elementTick
  try dsimp only
  repeat' first
    | with_reducible exact keeps_refl _ _
    | (show Block.within _ _ = true; rfl)
    | with_reducible apply keeps_step (k := State.setLiu_keeps _ _)
    | with_reducible apply keeps_step (k := State.setQuality_keeps _ _)

theorem State.flagChange_keeps (s : State) :
    keeps [.quality, .tracker, .printer, .store, .links] s s.flagChange := by
  unfold State.flagChange
  try dsimp only
  repeat' first
    | with_reducible exact keeps_refl _ _
    | (show Block.within _ _ = true; rfl)
    | with_reducible apply keeps_step (k := State.markDoubtful_keeps _)
    | with_reducible apply keeps_step (k := State.setQuality_keeps _ _)
    | with_reducible apply keeps_step (k := State.raiseNone_keeps _ _)
    | split

theorem State.makeCode_keeps (s : State) (c : Code) (kcase : Option Case) (r : Route) :
    keeps [.kbd, .punch] s (s.makeCode c kcase r) := by
  unfold State.makeCode
  try dsimp only
  repeat' first
    | with_reducible exact keeps_refl _ _
    | (show Block.within _ _ = true; rfl)
    | with_reducible apply keeps_step (k := State.setKbd_keeps _ _)
    | with_reducible apply keeps_step (k := State.setPunch_keeps _ _)
    | split

theorem State.makeEnd_keeps (s : State) (r : Route) : keeps [.kbd] s (s.makeEnd r) := by
  unfold State.makeEnd
  try dsimp only
  repeat' first
    | with_reducible exact keeps_refl _ _
    | (show Block.within _ _ = true; rfl)
    | with_reducible apply keeps_step (k := State.setKbd_keeps _ _)

theorem State.textKey_keeps (s : State) (p : BitVec 6) : keeps [.kbd, .punch] s (s.textKey p) := by
  unfold State.textKey
  try dsimp only
  repeat' first
    | with_reducible exact keeps_refl _ _
    | (show Block.within _ _ = true; rfl)
    | with_reducible apply keeps_step (k := State.setKbd_keeps _ _)
    | with_reducible apply keeps_step (k := State.makeCode_keeps _ _ _ _)
    | split

theorem State.createPrepared_keeps (s : State) (d : StationCode) :
    keeps [.kbd, .printer, .store, .links] s (s.createPrepared d) := by
  unfold State.createPrepared
  try dsimp only
  repeat' first
    | with_reducible exact keeps_refl _ _
    | (show Block.within _ _ = true; rfl)
    | with_reducible apply keeps_step (k := State.setStore_keeps _ _)
    | with_reducible apply keeps_step (k := State.setKbd_keeps _ _)
    | with_reducible apply keeps_step (k := State.raiseHigh_keeps _ _)
    | split

theorem State.destDone_keeps (s : State) (r : SetupRoute) (d : StationCode) :
    keeps [.kbd, .printer, .store, .links] s (s.destDone r d) := by
  unfold State.destDone
  try dsimp only
  repeat' first
    | with_reducible exact keeps_refl _ _
    | (show Block.within _ _ = true; rfl)
    | with_reducible apply keeps_step (k := State.createPrepared_keeps _ _)
    | with_reducible apply keeps_step (k := State.setKbd_keeps _ _)
    | split

theorem State.matrixKey_keeps (s : State) (p : BitVec 6) :
    keeps [.kbd, .printer, .punch, .store, .links] s (s.matrixKey p) := by
  unfold State.matrixKey
  try dsimp only
  repeat' first
    | with_reducible exact keeps_refl _ _
    | (show Block.within _ _ = true; rfl)
    | with_reducible apply keeps_step (k := State.textKey_keeps _ _)
    | with_reducible apply keeps_step (k := State.setKbd_keeps _ _)
    | with_reducible apply keeps_step (k := State.destDone_keeps _ _ _)
    | split

theorem State.keyDown_keeps (s : State) (p : BitVec 6) :
    keeps [.kbd, .printer, .punch, .store, .links] s (s.keyDown p) := by
  unfold State.keyDown
  try dsimp only
  repeat' first
    | with_reducible exact keeps_refl _ _
    | (show Block.within _ _ = true; rfl)
    | with_reducible apply keeps_step (k := State.matrixKey_keeps _ _)
    | with_reducible apply keeps_step (k := State.setKbd_keeps _ _)
    | split

theorem State.setupReady_keeps (s : State) : keeps [.kbd] s s.setupReady := by
  unfold State.setupReady
  try dsimp only
  repeat' first
    | with_reducible exact keeps_refl _ _
    | (show Block.within _ _ = true; rfl)
    | with_reducible apply keeps_step (k := State.setKbd_keeps _ _)

theorem State.endKey_keeps (s : State) : keeps [.kbd] s s.endKey := by
  unfold State.endKey
  try dsimp only
  repeat' first
    | with_reducible exact keeps_refl _ _
    | (show Block.within _ _ = true; rfl)
    | with_reducible apply keeps_step (k := State.makeEnd_keeps _ _)
    | with_reducible apply keeps_step (k := State.setupReady_keeps _)
    | with_reducible apply keeps_step (k := State.setKbd_keeps _ _)
    | split

theorem State.hereIs_keeps (s : State) : keeps [.kbd, .punch] s s.hereIs := by
  unfold State.hereIs
  repeat' first
    | with_reducible exact keeps_refl _ _
    | exact keeps_foldl _ (fun t c => State.makeCode_keeps t c _ _) _ _
    | exact keeps_mono (State.setKbd_keeps _ _) rfl
    | split

theorem State.discardPrepared_keeps (s : State) : keeps [.kbd, .store] s s.discardPrepared := by
  unfold State.discardPrepared
  try dsimp only
  repeat' first
    | with_reducible exact keeps_refl _ _
    | (show Block.within _ _ = true; rfl)
    | with_reducible apply keeps_step (k := State.setStore_keeps _ _)
    | with_reducible apply keeps_step (k := State.setKbd_keeps _ _)
    | split

theorem State.cancelRequest_keeps (s : State) : keeps [.sender, .kbd] s s.cancelRequest := by
  unfold State.cancelRequest
  try dsimp only
  repeat' first
    | with_reducible exact keeps_refl _ _
    | (show Block.within _ _ = true; rfl)
    | with_reducible apply keeps_step (k := State.makeEnd_keeps _ _)
    | with_reducible apply keeps_step (k := State.setKbd_keeps _ _)
    | with_reducible apply keeps_step (k := State.emptySlot_keeps _)
    | split

theorem State.cancelKey_keeps (s : State) : keeps [.sender, .kbd, .store] s s.cancelKey := by
  unfold State.cancelKey
  try dsimp only
  repeat' first
    | with_reducible exact keeps_refl _ _
    | (show Block.within _ _ = true; rfl)
    | with_reducible apply keeps_step (k := State.cancelRequest_keeps _)
    | with_reducible apply keeps_step (k := State.discardPrepared_keeps _)
    | with_reducible apply keeps_step (k := State.setKbd_keeps _ _)
    | split

theorem State.fnDown_keeps (s : State) (f : FnKey) : keeps [.kbd] s (s.fnDown f) := by
  unfold State.fnDown
  try dsimp only
  repeat' first
    | with_reducible exact keeps_refl _ _
    | (show Block.within _ _ = true; rfl)
    | with_reducible apply keeps_step (k := State.setKbd_keeps _ _)

theorem State.modeSetup_keeps (s : State) : keeps [.kbd, .store] s s.modeSetup := by
  unfold State.modeSetup
  try dsimp only
  repeat' first
    | with_reducible exact keeps_refl _ _
    | (show Block.within _ _ = true; rfl)
    | with_reducible apply keeps_step (k := State.discardPrepared_keeps _)
    | with_reducible apply keeps_step (k := State.setupReady_keeps _)
    | with_reducible apply keeps_step (k := State.setKbd_keeps _ _)
    | split

theorem State.modeChange_keeps (s : State) : keeps [.kbd, .punch, .store] s s.modeChange := by
  unfold State.modeChange
  try dsimp only
  repeat' first
    | with_reducible exact keeps_refl _ _
    | (show Block.within _ _ = true; rfl)
    | with_reducible apply keeps_step (k := State.modeSetup_keeps _)
    | with_reducible apply keeps_step (k := State.setKbd_keeps _ _)
    | with_reducible apply keeps_step (k := State.setPunch_keeps _ _)

theorem State.punchChange_keeps (s : State) : keeps [.tracker, .kbd, .punch] s s.punchChange := by
  unfold State.punchChange
  try dsimp only
  repeat' first
    | with_reducible exact keeps_refl _ _
    | (show Block.within _ _ = true; rfl)
    | with_reducible apply keeps_step (k := State.setKbd_keeps _ _)
    | with_reducible apply keeps_step (k := State.setPunch_keeps _ _)
    | with_reducible apply keeps_step (k := State.setTracker_keeps _ _)
    | split

theorem State.writePrepared_keeps (s : State) (i : Nat) (cs : List Code) :
    keeps [.kbd, .printer, .store, .links] s (s.writePrepared i cs) := by
  induction cs generalizing s with
  | nil => exact keeps_refl _ s
  | cons c cs ih =>
    unfold State.writePrepared
    try dsimp only
    split
    · refine keeps_trans ?_ (ih _)
      exact keeps_step (keeps_step (keeps_mono (State.setStore_keeps _ _) rfl) (State.setKbd_keeps _ _) rfl)
        (State.raiseHigh_keeps _ _) rfl
    · exact keeps_step (keeps_mono (State.setStore_keeps _ _) rfl) (State.setKbd_keeps _ _) rfl

theorem State.takePrepare_keeps (s : State) : keeps [.kbd, .printer, .store, .links] s s.takePrepare := by
  unfold State.takePrepare
  try dsimp only
  repeat' first
    | with_reducible exact keeps_refl _ _
    | (show Block.within _ _ = true; rfl)
    | with_reducible apply keeps_step (k := State.setStore_keeps _ _)
    | with_reducible apply keeps_step (k := State.setKbd_keeps _ _)
    | with_reducible apply keeps_step (k := State.writePrepared_keeps _ _ _)
    | split

theorem State.takeLocalEntry_keeps (s : State) : keeps [.kbd, .printer] s s.takeLocalEntry := by
  unfold State.takeLocalEntry
  try dsimp only
  repeat' first
    | with_reducible exact keeps_refl _ _
    | (show Block.within _ _ = true; rfl)
    | with_reducible apply keeps_step (k := State.setPrinter_keeps _ _)
    | with_reducible apply keeps_step (k := State.setKbd_keeps _ _)
    | split

theorem State.tickLocal_keeps (s : State) : keeps [.printer] s s.tickLocal := by
  unfold State.tickLocal
  try dsimp only
  repeat' first
    | with_reducible exact keeps_refl _ _
    | (show Block.within _ _ = true; rfl)
    | with_reducible apply keeps_step (k := State.setPrinter_keeps _ _)
    | split

theorem State.grantDrain_keeps (s : State) : keeps [.printer, .store] s s.grantDrain := by
  unfold State.grantDrain
  try dsimp only
  repeat' first
    | with_reducible exact keeps_refl _ _
    | (show Block.within _ _ = true; rfl)
    | with_reducible apply keeps_step (k := State.setPrinter_keeps _ _)
    | with_reducible apply keeps_step (k := State.setStore_keeps _ _)
    | split

theorem State.drainCell_keeps (s : State) (i : Nat) : keeps [.printer, .store] s (s.drainCell i) := by
  unfold State.drainCell
  try dsimp only
  repeat' first
    | with_reducible exact keeps_refl _ _
    | (show Block.within _ _ = true; rfl)
    | with_reducible apply keeps_step (k := State.setStore_keeps _ _)
    | with_reducible apply keeps_step (k := State.setPrinter_keeps _ _)

theorem State.judgePrint_keeps (s : State) : keeps [.printer, .store] s s.judgePrint := by
  unfold State.judgePrint
  try dsimp only
  repeat' first
    | with_reducible exact keeps_refl _ _
    | (show Block.within _ _ = true; rfl)
    | with_reducible apply keeps_step (k := State.setPrinter_keeps _ _)
    | with_reducible apply keeps_step (k := State.setStore_keeps _ _)
    | split

theorem State.drainRead_keeps (s : State) : keeps [.printer, .store] s s.drainRead := by
  unfold State.drainRead
  try dsimp only
  repeat' first
    | with_reducible exact keeps_refl _ _
    | (show Block.within _ _ = true; rfl)
    | with_reducible apply keeps_step (k := State.drainCell_keeps _ _)
    | with_reducible apply keeps_step (k := State.setPrinter_keeps _ _)
    | with_reducible apply keeps_step (k := State.judgePrint_keeps _)
    | split

theorem State.notReady_keeps (s : State) :
    keeps [.liu, .tracker, .printer, .store, .answer, .links] s s.notReady := by
  unfold State.notReady
  try dsimp only
  repeat' first
    | with_reducible exact keeps_refl _ _
    | (show Block.within _ _ = true; rfl)
    | with_reducible apply keeps_step (k := State.switchDirect_keeps _)
    | with_reducible apply keeps_step (k := State.setPrinter_keeps _ _)
    | with_reducible apply keeps_step (k := State.raiseHigh_keeps _ _)

theorem State.paperOut_keeps (s : State) :
    keeps [.liu, .tracker, .printer, .store, .answer, .links] s s.paperOut := by
  unfold State.paperOut
  try dsimp only
  repeat' first
    | with_reducible exact keeps_refl _ _
    | (show Block.within _ _ = true; rfl)
    | with_reducible apply keeps_step (k := State.notReady_keeps _)
    | with_reducible apply keeps_step (k := State.setPrinter_keeps _ _)
    | with_reducible apply keeps_step (k := State.raiseNone_keeps _ _)

theorem State.paperBack_keeps (s : State) : keeps [.printer, .store, .links] s s.paperBack := by
  unfold State.paperBack
  try dsimp only
  repeat' first
    | with_reducible exact keeps_refl _ _
    | (show Block.within _ _ = true; rfl)
    | with_reducible apply keeps_step (k := State.setPrinter_keeps _ _)
    | with_reducible apply keeps_step (k := State.raiseNone_keeps _ _)

theorem State.faultAsserted_keeps (s : State) :
    keeps [.liu, .tracker, .printer, .store, .answer, .links] s s.faultAsserted := by
  unfold State.faultAsserted
  try dsimp only
  repeat' first
    | with_reducible exact keeps_refl _ _
    | (show Block.within _ _ = true; rfl)
    | with_reducible apply keeps_step (k := State.notReady_keeps _)
    | with_reducible apply keeps_step (k := State.setPrinter_keeps _ _)

theorem State.speedLost_keeps (s : State) :
    keeps [.liu, .tracker, .printer, .store, .answer, .links] s s.speedLost := by
  unfold State.speedLost
  try dsimp only
  repeat' first
    | with_reducible exact keeps_refl _ _
    | (show Block.within _ _ = true; rfl)
    | with_reducible apply keeps_step (k := State.notReady_keeps _)
    | with_reducible apply keeps_step (k := State.setPrinter_keeps _ _)

theorem State.startTimeout_keeps (s : State) :
    keeps [.liu, .tracker, .printer, .store, .answer, .links] s s.startTimeout := by
  unfold State.startTimeout
  try dsimp only
  repeat' first
    | with_reducible exact keeps_refl _ _
    | (show Block.within _ _ = true; rfl)
    | with_reducible apply keeps_step (k := State.notReady_keeps _)
    | with_reducible apply keeps_step (k := State.setPrinter_keeps _ _)

theorem State.tapeOut_keeps (s : State) : keeps [.tracker, .printer, .punch, .store, .links] s s.tapeOut := by
  unfold State.tapeOut
  try dsimp only
  repeat' first
    | with_reducible exact keeps_refl _ _
    | (show Block.within _ _ = true; rfl)
    | with_reducible apply keeps_step (k := State.setPunch_keeps _ _)
    | with_reducible apply keeps_step (k := State.raiseNone_keeps _ _)
    | with_reducible apply keeps_step (k := State.setTracker_keeps _ _)

theorem State.tickLoader_keeps (s : State) : keeps [.loader] s s.tickLoader := by
  unfold State.tickLoader
  try dsimp only
  repeat' first
    | with_reducible exact keeps_refl _ _
    | (show Block.within _ _ = true; rfl)
    | with_reducible apply keeps_step (k := State.setLoader_keeps _ _)

theorem State.tickTimers_keeps (s : State) (i : TickInputs) :
    keeps [.quality, .kbd, .printer, .punch, .store, .links] s (s.tickTimers i) := by
  unfold State.tickTimers
  try dsimp only
  repeat' first
    | with_reducible exact keeps_refl _ _
    | (show Block.within _ _ = true; rfl)
    | with_reducible apply keeps_step (k := State.setStore_keeps _ _)
    | with_reducible apply keeps_step (k := State.setLinks_keeps _ _)
    | with_reducible apply keeps_step (k := State.setPrinter_keeps _ _)
    | with_reducible apply keeps_step (k := State.setKbd_keeps _ _)
    | with_reducible apply keeps_step (k := State.setQuality_keeps _ _)
    | with_reducible apply keeps_step (k := State.setPunch_keeps _ _)

theorem State.tickWatch_keeps (s : State) : keeps [.kbd, .answer] s s.tickWatch := by
  unfold State.tickWatch
  try dsimp only
  repeat' first
    | with_reducible exact keeps_refl _ _
    | (show Block.within _ _ = true; rfl)
    | with_reducible apply keeps_step (k := State.setAnswer_keeps _ _)
    | with_reducible apply keeps_step (k := State.wake_keeps _)
    | split

theorem State.enterWatch_keeps (s : State) : keeps [.kbd, .answer] s s.enterWatch := by
  unfold State.enterWatch
  try dsimp only
  repeat' first
    | with_reducible exact keeps_refl _ _
    | (show Block.within _ _ = true; rfl)
    | with_reducible apply keeps_step (k := State.setAnswer_keeps _ _)
    | with_reducible apply keeps_step (k := State.setKbd_keeps _ _)

theorem State.tickScan_keeps (s : State) (i : TickInputs) (wait : Nat) :
    keeps [.kbd, .answer] s (s.tickScan i wait) := by
  unfold State.tickScan
  try dsimp only
  repeat' first
    | with_reducible exact keeps_refl _ _
    | (show Block.within _ _ = true; rfl)
    | with_reducible apply keeps_step (k := State.wake_keeps _)
    | with_reducible apply keeps_step (k := State.setKbd_keeps _ _)
    | split

theorem State.tick_keeps (s : State) (i : TickInputs) :
    keeps [.loader, .quality, .kbd, .printer, .punch, .store, .answer, .links] s (s.tick i) := by
  unfold State.tick
  try dsimp only
  repeat' first
    | with_reducible exact keeps_refl _ _
    | (show Block.within _ _ = true; rfl)
    | with_reducible apply keeps_step (k := State.tickTimers_keeps _ _)
    | with_reducible apply keeps_step (k := State.tickLocal_keeps _)
    | with_reducible apply keeps_step (k := State.tickLoader_keeps _)
    | with_reducible apply keeps_step (k := State.tickScan_keeps _ _ _)
    | with_reducible apply keeps_step (k := State.tickWatch_keeps _)
    | split

theorem State.powerOn_keeps (s : State) : keeps [.loader, .liu, .framer, .gauge, .quality, .sender, .listener, .tracker, .kbd, .printer, .punch, .store, .answer, .links, .port] s s.powerOn := by
  intro b hb; cases b <;> first | rfl | exact absurd (by decide) hb

theorem State.beginReset_keeps (s : State) (cause : ResetCause) : keeps [.loader, .liu, .framer, .gauge, .quality, .sender, .listener, .tracker, .kbd, .printer, .punch, .store, .answer, .links, .port] s (s.beginReset cause) := by
  intro b hb; cases b <;> first | rfl | exact absurd (by decide) hb

theorem State.resetPin_keeps (s : State) :
    keeps [.loader, .liu, .framer, .gauge, .quality, .sender, .listener, .tracker, .kbd, .printer, .punch, .store, .answer, .links, .port] s s.resetPin := by
  unfold State.resetPin
  try dsimp only
  repeat' first
    | with_reducible exact keeps_refl _ _
    | (show Block.within _ _ = true; rfl)
    | with_reducible apply keeps_step (k := State.beginReset_keeps _ _)
    | split

theorem State.release_keeps (s : State) (st : Straps) : keeps [.loader, .liu, .printer] s (s.release st) := by
  unfold State.release
  try dsimp only
  repeat' first
    | with_reducible exact keeps_refl _ _
    | (show Block.within _ _ = true; rfl)
    | with_reducible apply keeps_step (k := State.setLoader_keeps _ _)
    | with_reducible apply keeps_step (k := State.setLiu_keeps _ _)
    | with_reducible apply keeps_step (k := State.setPrinter_keeps _ _)

theorem State.loadImage_keeps (s : State) (img : Option (Vector Byte 65)) :
    keeps [.loader, .answer, .links] s (s.loadImage img) := by
  unfold State.loadImage
  try dsimp only
  repeat' first
    | with_reducible exact keeps_refl _ _
    | (show Block.within _ _ = true; rfl)
    | with_reducible apply keeps_step (k := State.setAnswer_keeps _ _)
    | with_reducible apply keeps_step (k := State.setLoader_keeps _ _)
    | with_reducible apply keeps_step (k := State.setLinks_keeps _ _)

theorem State.finishStartUp_keeps (s : State) (img : Option (Vector Byte 65)) :
    keeps [.loader, .sender, .printer, .answer, .links] s (s.finishStartUp img) := by
  unfold State.finishStartUp
  try dsimp only
  repeat' first
    | with_reducible exact keeps_refl _ _
    | (show Block.within _ _ = true; rfl)
    | with_reducible apply keeps_step (k := State.setLoader_keeps _ _)
    | with_reducible apply keeps_step (k := State.setSender_keeps _ _)
    | with_reducible apply keeps_step (k := State.setPrinter_keeps _ _)
    | with_reducible apply keeps_step (k := State.loadImage_keeps _ _)

theorem State.configRead_keeps (s : State) (img : Option (Vector Byte 65)) :
    keeps [.loader, .sender, .printer, .answer, .links] s (s.configRead img) := by
  unfold State.configRead
  try dsimp only
  repeat' first
    | with_reducible exact keeps_refl _ _
    | (show Block.within _ _ = true; rfl)
    | with_reducible apply keeps_step (k := State.setLoader_keeps _ _)
    | with_reducible apply keeps_step (k := State.finishStartUp_keeps _ _)
    | split

theorem State.beginTxn_keeps (s : State) : keeps [.kbd, .answer, .port] s s.beginTxn := by
  unfold State.beginTxn
  try dsimp only
  repeat' first
    | with_reducible exact keeps_refl _ _
    | (show Block.within _ _ = true; rfl)
    | with_reducible apply keeps_step (k := State.setPort_keeps _ _)
    | with_reducible apply keeps_step (k := State.wake_keeps _)

theorem State.selectFalls_keeps (s : State) : keeps [.kbd, .answer, .port] s s.selectFalls := by
  unfold State.selectFalls
  try dsimp only
  repeat' first
    | with_reducible exact keeps_refl _ _
    | (show Block.within _ _ = true; rfl)
    | with_reducible apply keeps_step (k := State.setPort_keeps _ _)
    | with_reducible apply keeps_step (k := State.beginTxn_keeps _)
    | split

theorem State.txnEnd_keeps (s : State) (errSince : Bool) (e : TxnEffect) :
    keeps [.loader, .liu, .framer, .gauge, .quality, .sender, .listener, .tracker, .kbd, .printer, .punch, .store, .answer, .links, .port] s (s.txnEnd errSince e) := by
  unfold State.txnEnd
  try dsimp only
  repeat' first
    | with_reducible exact keeps_refl _ _
    | (show Block.within _ _ = true; rfl)
    | with_reducible apply keeps_step (k := State.setPort_keeps _ _)
    | with_reducible apply keeps_step (k := State.setQuality_keeps _ _)
    | with_reducible apply keeps_step (k := State.beginReset_keeps _ _)
    | split

theorem State.selectRises_keeps (s : State) :
    keeps [.loader, .liu, .framer, .gauge, .quality, .sender, .listener, .tracker, .kbd, .printer, .punch, .store, .answer, .links, .port] s s.selectRises := by
  unfold State.selectRises
  try dsimp only
  repeat' first
    | with_reducible exact keeps_refl _ _
    | (show Block.within _ _ = true; rfl)
    | with_reducible apply keeps_step (k := State.setPort_keeps _ _)
    | with_reducible apply keeps_step (k := State.txnEnd_keeps _ _ _)
    | split

theorem State.putTxn_keeps (s : State) (x : Txn) : keeps [.port] s (s.putTxn x) := by
  unfold State.putTxn
  try dsimp only
  repeat' first
    | with_reducible exact keeps_refl _ _
    | (show Block.within _ _ = true; rfl)
    | with_reducible apply keeps_step (k := State.setPort_keeps _ _)

theorem State.command_keeps {bs : List Block} (s : State) (ok : Bool) (f : Txn → State)
    (hf : ∀ x, keeps bs s (f x)) (hp : Block.within [.port] bs = true) : keeps bs s (s.command ok f) := by
  unfold State.command
  split
  · exact keeps_refl _ _
  · split
    · exact keeps_mono (State.putTxn_keeps _ _) hp
    · exact hf _

theorem State.portStatus_keeps (s : State) : keeps [.port] s s.portStatus := by
  unfold State.portStatus
  try dsimp only
  repeat' first
    | with_reducible exact keeps_refl _ _
    | (show Block.within _ _ = true; rfl)
    | refine State.command_keeps _ _ _ (fun x => ?_) rfl
    | with_reducible apply keeps_step (k := State.putTxn_keeps _ _)

theorem State.portMask_keeps (s : State) (param : Byte) : keeps [.port] s (s.portMask param) := by
  unfold State.portMask
  try dsimp only
  repeat' first
    | with_reducible exact keeps_refl _ _
    | (show Block.within _ _ = true; rfl)
    | refine State.command_keeps _ _ _ (fun x => ?_) rfl
    | with_reducible apply keeps_step (k := State.putTxn_keeps _ _)

theorem State.portQuality_keeps (s : State) : keeps [.port] s s.portQuality := by
  unfold State.portQuality
  try dsimp only
  repeat' first
    | with_reducible exact keeps_refl _ _
    | (show Block.within _ _ = true; rfl)
    | refine State.command_keeps _ _ _ (fun x => ?_) rfl
    | with_reducible apply keeps_step (k := State.putTxn_keeps _ _)

theorem State.portLog_keeps (s : State) (n : Byte) : keeps [.port] s (s.portLog n) := by
  unfold State.portLog
  try dsimp only
  repeat' first
    | with_reducible exact keeps_refl _ _
    | (show Block.within _ _ = true; rfl)
    | refine State.command_keeps _ _ _ (fun x => ?_) rfl
    | with_reducible apply keeps_step (k := State.putTxn_keeps _ _)

theorem State.portDirectory_keeps (s : State) (idx : Byte) : keeps [.port] s (s.portDirectory idx) := by
  unfold State.portDirectory
  try dsimp only
  repeat' first
    | with_reducible exact keeps_refl _ _
    | (show Block.within _ _ = true; rfl)
    | refine State.command_keeps _ _ _ (fun x => ?_) rfl
    | with_reducible apply keeps_step (k := State.putTxn_keeps _ _)

theorem State.portText_keeps (s : State) (idx : Byte) (off : BitVec 16) (count : Byte) :
    keeps [.store, .port] s (s.portText idx off count) := by
  unfold State.portText
  try dsimp only
  repeat' first
    | with_reducible exact keeps_refl _ _
    | (show Block.within _ _ = true; rfl)
    | refine State.command_keeps _ _ _ (fun x => ?_) rfl
    | with_reducible apply keeps_step (k := State.setStore_keeps _ _)
    | with_reducible apply keeps_step (k := State.putTxn_keeps _ _)

theorem State.portIdent_keeps (s : State) : keeps [.port] s s.portIdent := by
  unfold State.portIdent
  try dsimp only
  repeat' first
    | with_reducible exact keeps_refl _ _
    | (show Block.within _ _ = true; rfl)
    | refine State.command_keeps _ _ _ (fun x => ?_) rfl
    | with_reducible apply keeps_step (k := State.putTxn_keeps _ _)

theorem State.loseDrainOf_keeps (s : State) (i : Nat) : keeps [.printer] s (s.loseDrainOf i) := by
  unfold State.loseDrainOf
  try dsimp only
  repeat' first
    | with_reducible exact keeps_refl _ _
    | (show Block.within _ _ = true; rfl)
    | with_reducible apply keeps_step (k := State.setPrinter_keeps _ _)
    | split

theorem State.deleteEntry_keeps (s : State) (i : Nat) : keeps [.printer, .store] s (s.deleteEntry i).1 := by
  unfold State.deleteEntry
  try dsimp only
  repeat' first
    | with_reducible exact keeps_refl _ _
    | (show Block.within _ _ = true; rfl)
    | with_reducible apply keeps_step (k := State.setStore_keeps _ _)
    | with_reducible apply keeps_step (k := State.loseDrainOf_keeps _ _)
    | split

theorem State.keepEntry_keeps (s : State) (i : Nat) : keeps [.store] s (s.keepEntry i).1 := by
  unfold State.keepEntry
  try dsimp only
  repeat' first
    | with_reducible exact keeps_refl _ _
    | (show Block.within _ _ = true; rfl)
    | with_reducible apply keeps_step (k := State.setStore_keeps _ _)
    | split

theorem State.releaseEntry_keeps (s : State) (i : Nat) : keeps [.store] s (s.releaseEntry i).1 := by
  unfold State.releaseEntry
  try dsimp only
  repeat' first
    | with_reducible exact keeps_refl _ _
    | (show Block.within _ _ = true; rfl)
    | with_reducible apply keeps_step (k := State.setStore_keeps _ _)
    | split

theorem State.portEntry_keeps {bs : List Block} (s : State) (idx : Byte) (r : State × Byte) (h : keeps bs s r.1)
    (hp : Block.within [.port] bs = true) : keeps bs s (s.portEntry idx r) := by
  unfold State.portEntry
  exact State.command_keeps s _ _ (fun x => keeps_step h (State.putTxn_keeps _ _) hp) hp

theorem State.portReset_keeps (s : State) : keeps [.port] s s.portReset := by
  unfold State.portReset
  try dsimp only
  repeat' first
    | with_reducible exact keeps_refl _ _
    | (show Block.within _ _ = true; rfl)
    | refine State.command_keeps _ _ _ (fun x => ?_) rfl
    | with_reducible apply keeps_step (k := State.putTxn_keeps _ _)

theorem State.portNak_keeps (s : State) (cmd : Byte) (ps : List Byte) : keeps [.port] s (s.portNak cmd ps) := by
  unfold State.portNak
  try dsimp only
  repeat' first
    | with_reducible exact keeps_refl _ _
    | (show Block.within _ _ = true; rfl)
    | with_reducible apply keeps_step (k := State.putTxn_keeps _ _)
    | split

end Sys2Proof.Machine
end

