-- ==== Sys2Proof/Laws/Burst.lean ====
section
/-! SUPPORT. The one way in which events, texts and ends of calls reach the Line Interface Unit: a break burst begins
(R12). -/

namespace Sys2Proof.Machine

open Sys2Proof.Safety

/-- The LIU is as it was, or a break burst has begun under R12's conditions. -/
def burstOnly (s t : State) : Prop :=
  t.liu = s.liu ∨
    (s.liu.drive = .off ∧ s.liu.rest = false ∧ s.liu.faultLatch = false ∧ s.liu.divisor.isSome = true ∧
      t.liu = { s.liu with drive := .burst, burstN := 0 })

theorem burstOnly_refl (s : State) : burstOnly s s := Or.inl rfl

theorem burstOnly_trans {s t u : State} (h : burstOnly s t) (k : burstOnly t u) : burstOnly s u := by
  rcases h with h | ⟨h1, h2, h3, h4, h⟩ <;> rcases k with k | ⟨k1, k2, k3, k4, k⟩
  · exact Or.inl (k.trans h)
  · rw [h] at k1 k2 k3 k4 k; exact Or.inr ⟨k1, k2, k3, k4, k⟩
  · rw [h] at k; exact Or.inr ⟨h1, h2, h3, h4, k⟩
  · rw [h] at k1; cases k1

/-- An operation that keeps the LIU. -/
theorem burstOnly_keeps {as : List Block} {s t : State} (k : keeps as s t) (d : as.contains .liu = false) :
    burstOnly s t := Or.inl (k .liu (by simpa using d))

theorem burstOnly_foldl {α : Type} (f : State → α → State) (hf : ∀ t a, burstOnly t (f t a)) (xs : List α) (s : State) :
    burstOnly s (xs.foldl f s) := by
  induction xs generalizing s with
  | nil => exact burstOnly_refl s
  | cons x xs ih => exact burstOnly_trans (hf s x) (ih (f s x))

theorem State.requestBurst_burst (s : State) : burstOnly s s.requestBurst := by
  unfold State.requestBurst
  split
  · rename_i h
    simp only [State.burstAllowed, Bool.and_eq_true, Bool.not_eq_true', decide_eq_true_eq] at h
    exact Or.inr ⟨h.1.1.1.2, h.1.1.1.1, h.2, h.1.1.2, rfl⟩
  · exact burstOnly_refl s

theorem State.loseRest_burst (s : State) (d : DispRecord) : burstOnly s (s.loseRest d) := by
  unfold State.loseRest
  try dsimp only
  repeat' first
    | with_reducible exact burstOnly_refl _
    | with_reducible apply burstOnly_trans (k := burstOnly_keeps (State.putDisp_keeps _ _) rfl)
    | with_reducible apply burstOnly_trans (k := State.requestBurst_burst _)
    | split

theorem State.switchOver_burst (s : State) (d : DispRecord) : burstOnly s (s.switchOver d) := by
  unfold State.switchOver
  try dsimp only
  repeat' first
    | with_reducible exact burstOnly_refl _
    | with_reducible apply burstOnly_trans (k := burstOnly_keeps (State.putDisp_keeps _ _) rfl)
    | with_reducible apply burstOnly_trans (k := burstOnly_keeps (State.setPrinter_keeps _ _) rfl)
    | with_reducible apply burstOnly_trans (k := burstOnly_keeps (State.createReceived_keeps _ _ _) rfl)
    | with_reducible apply burstOnly_trans (k := State.loseRest_burst _ _)
    | split

theorem State.switchDirect_burst (s : State) : burstOnly s s.switchDirect := by
  unfold State.switchDirect
  try dsimp only
  repeat' first
    | with_reducible exact burstOnly_refl _
    | with_reducible apply burstOnly_trans (k := State.switchOver_burst _ _)
    | split

theorem State.spoolCall_burst (s : State) : burstOnly s s.spoolCall := by
  unfold State.spoolCall
  try dsimp only
  repeat' first
    | with_reducible exact burstOnly_refl _
    | with_reducible apply burstOnly_trans (k := burstOnly_keeps (State.putDisp_keeps _ _) rfl)
    | with_reducible apply burstOnly_trans (k := burstOnly_keeps (State.setAnswer_keeps _ _) rfl)
    | with_reducible apply burstOnly_trans (k := State.switchOver_burst _ _)
    | split

theorem State.doAction_burst (s : State) (serial : Option Nat) (a : BitVec 4) :
    burstOnly s (s.doAction serial a) := by
  unfold State.doAction
  try dsimp only
  repeat' first
    | with_reducible exact burstOnly_refl _
    | with_reducible apply burstOnly_trans (k := burstOnly_keeps (State.punchStop_keeps _) rfl)
    | with_reducible apply burstOnly_trans (k := burstOnly_keeps (State.setPrinter_keeps _ _) rfl)
    | with_reducible apply burstOnly_trans (k := burstOnly_keeps (State.setStore_keeps _ _) rfl)
    | with_reducible apply burstOnly_trans (k := burstOnly_keeps (State.setLinks_keeps _ _) rfl)
    | with_reducible apply burstOnly_trans (k := State.spoolCall_burst _)
    | with_reducible apply burstOnly_trans (k := burstOnly_keeps (State.punchCall_keeps _) rfl)
    | split

theorem State.takeEvent_burst (s : State) (d : Unseen) (e : Event) : burstOnly s (s.takeEvent d e) := by
  unfold State.takeEvent
  exact burstOnly_trans (burstOnly_foldl _ (fun t a => State.doAction_burst t e.call a) _ s)
    (burstOnly_keeps (State.lateCode_keeps _ e) rfl)

theorem State.raise_burst (s : State) (ev : BitVec 4) (serial : Option Nat) : burstOnly s (s.raise ev serial) :=
  burstOnly_keeps (State.raise_keeps s ev serial) rfl

theorem State.endCall_burst (s : State) (o : CallOutcome) : burstOnly s (s.endCall o) := by
  unfold State.endCall
  try dsimp only
  repeat' first
    | with_reducible exact burstOnly_refl _
    | with_reducible apply burstOnly_trans (k := burstOnly_keeps (State.settleEntry_keeps _ _ _) rfl)
    | with_reducible apply burstOnly_trans (k := burstOnly_keeps (State.callerCallEnd_keeps _ _ _) rfl)
    | with_reducible apply burstOnly_trans (k := burstOnly_keeps (State.setStore_keeps _ _) rfl)
    | with_reducible apply burstOnly_trans (k := burstOnly_keeps (State.collectionCallEnd_keeps _ _) rfl)
    | with_reducible apply burstOnly_trans (k := burstOnly_keeps (State.setPrinter_keeps _ _) rfl)
    | with_reducible apply burstOnly_trans (k := burstOnly_keeps (State.endDeliver_keeps _ _) rfl)
    | with_reducible apply burstOnly_trans (k := burstOnly_keeps (State.setAnswer_keeps _ _) rfl)
    | with_reducible apply burstOnly_trans (k := burstOnly_keeps (State.setPunch_keeps _ _) rfl)
    | with_reducible apply burstOnly_trans (k := State.raise_burst _ _ _)
    | with_reducible apply burstOnly_trans (k := burstOnly_keeps (State.setTracker_keeps _ _) rfl)
    | split

theorem State.endCallR63_burst (s : State) : burstOnly s s.endCallR63 := by
  unfold State.endCallR63
  try dsimp only
  repeat' first
    | with_reducible exact burstOnly_refl _
    | with_reducible apply burstOnly_trans (k := State.endCall_burst _ _)
    | split

theorem State.endJudging_burst (s : State) : burstOnly s s.endJudging := by
  unfold State.endJudging
  try dsimp only
  repeat' first
    | with_reducible exact burstOnly_refl _
    | with_reducible apply burstOnly_trans (k := State.endCallR63_burst _)
    | split

theorem State.noPlace_burst (s : State) (d : DispRecord) : burstOnly s (s.noPlace d) := by
  unfold State.noPlace
  try dsimp only
  repeat' first
    | with_reducible exact burstOnly_refl _
    | with_reducible apply burstOnly_trans (k := burstOnly_keeps (State.putDisp_keeps _ _) rfl)
    | with_reducible apply burstOnly_trans (k := State.requestBurst_burst _)
    | split

theorem State.decide_burst (s : State) (d : DispRecord) : burstOnly s (s.decide d) := by
  unfold State.decide
  dsimp only
  split
  · split
    · exact burstOnly_keeps (State.trySpool_keeps s d) rfl
    · cases h : (s.trySpool d).1.tryDirect d with
      | none => exact burstOnly_trans (burstOnly_keeps (State.trySpool_keeps s d) rfl) (State.noPlace_burst _ _)
      | some t => exact burstOnly_trans (burstOnly_keeps (State.trySpool_keeps s d) rfl) (burstOnly_keeps (State.tryDirect_keeps _ _ t h) rfl)
  · split
    · exact burstOnly_keeps (State.tryDirect_keeps _ _ _ (by assumption)) rfl
    · split
      · exact burstOnly_keeps (State.trySpool_keeps s d) rfl
      · exact burstOnly_trans (burstOnly_keeps (State.trySpool_keeps s d) rfl) (State.noPlace_burst _ _)

theorem State.refusalPoint_burst (s : State) : burstOnly s s.refusalPoint := by
  unfold State.refusalPoint
  try dsimp only
  repeat' first
    | with_reducible exact burstOnly_refl _
    | with_reducible apply burstOnly_trans (k := burstOnly_keeps (State.putDisp_keeps _ _) rfl)
    | with_reducible apply burstOnly_trans (k := State.requestBurst_burst _)
    | split

theorem State.decideWindow_burst (s : State) : burstOnly s s.decideWindow := by
  unfold State.decideWindow
  try dsimp only
  repeat' first
    | with_reducible exact burstOnly_refl _
    | with_reducible apply burstOnly_trans (k := State.decide_burst _ _)
    | split

theorem State.spoolCell_burst (s : State) (d : DispRecord) (c : Code) (err text : Bool) :
    burstOnly s (s.spoolCell d c err text) := by
  unfold State.spoolCell
  try dsimp only
  repeat' first
    | with_reducible exact burstOnly_refl _
    | with_reducible apply burstOnly_trans (k := burstOnly_keeps (State.putDisp_keeps _ _) rfl)
    | with_reducible apply burstOnly_trans (k := burstOnly_keeps (State.setStore_keeps _ _) rfl)
    | with_reducible apply burstOnly_trans (k := burstOnly_keeps (State.raiseHigh_keeps _ _) rfl)
    | with_reducible apply burstOnly_trans (k := State.loseRest_burst _ _)
    | split

theorem State.spoolShift_burst (s : State) : burstOnly s s.spoolShift := by
  unfold State.spoolShift
  try dsimp only
  repeat' first
    | with_reducible exact burstOnly_refl _
    | with_reducible apply burstOnly_trans (k := State.spoolCell_burst _ _ _ _ _)
    | split

theorem State.spoolCode_burst (s : State) (c : Code) (err : Bool) : burstOnly s (s.spoolCode c err) := by
  unfold State.spoolCode
  try dsimp only
  repeat' first
    | with_reducible exact burstOnly_refl _
    | with_reducible apply burstOnly_trans (k := State.spoolCell_burst _ _ _ _ _)
    | with_reducible apply burstOnly_trans (k := State.spoolShift_burst _)
    | split

theorem State.printFull_burst (s : State) (d : DispRecord) (c : Code) (err : Bool) :
    burstOnly s (s.printFull d c err) := by
  unfold State.printFull
  try dsimp only
  repeat' first
    | with_reducible exact burstOnly_refl _
    | with_reducible apply burstOnly_trans (k := State.switchOver_burst _ _)
    | with_reducible apply burstOnly_trans (k := State.spoolCode_burst _ _ _)
    | with_reducible apply burstOnly_trans (k := burstOnly_keeps (State.raiseHigh_keeps _ _) rfl)

theorem State.passCode_burst (s : State) (c : Code) (err : Bool) (k : Case) : burstOnly s (s.passCode c err k) := by
  unfold State.passCode
  try dsimp only
  repeat' first
    | with_reducible exact burstOnly_refl _
    | with_reducible apply burstOnly_trans (k := burstOnly_keeps (State.putDisp_keeps _ _) rfl)
    | with_reducible apply burstOnly_trans (k := State.spoolCode_burst _ _ _)
    | with_reducible apply burstOnly_trans (k := burstOnly_keeps (State.setPrinter_keeps _ _) rfl)
    | with_reducible apply burstOnly_trans (k := State.printFull_burst _ _ _ _)
    | split

theorem State.dispTextStart_burst (s : State) : burstOnly s s.dispTextStart := by
  unfold State.dispTextStart
  try dsimp only
  repeat' first
    | with_reducible exact burstOnly_refl _
    | with_reducible apply burstOnly_trans (k := State.spoolCell_burst _ _ _ _ _)
    | with_reducible apply burstOnly_trans (k := burstOnly_keeps (State.putDisp_keeps _ _) rfl)
    | split

theorem State.enterText_burst (s : State) : burstOnly s s.enterText := by
  unfold State.enterText
  try dsimp only
  repeat' first
    | with_reducible exact burstOnly_refl _
    | with_reducible apply burstOnly_trans (k := burstOnly_keeps (State.textStart_keeps _) rfl)
    | with_reducible apply burstOnly_trans (k := burstOnly_keeps (State.markDoubtful_keeps _) rfl)
    | with_reducible apply burstOnly_trans (k := State.dispTextStart_burst _)
    | with_reducible apply burstOnly_trans (k := burstOnly_keeps (State.setListener_keeps _ _) rfl)
    | split

theorem State.classifyWatch_burst (s : State) : burstOnly s s.classifyWatch := by
  unfold State.classifyWatch
  try dsimp only
  repeat' first
    | with_reducible exact burstOnly_refl _
    | with_reducible apply burstOnly_trans (k := burstOnly_keeps (State.finishJob_keeps _ _) rfl)
    | with_reducible apply burstOnly_trans (k := burstOnly_keeps (State.recontend_keeps _) rfl)
    | with_reducible apply burstOnly_trans (k := State.endCall_burst _ _)
    | split

theorem State.openCall_burst (s : State) (role : Role) (origin : StationCode) (kind : CallKind) (dest : StationCode) :
    burstOnly s (s.openCall role origin kind dest) := by
  unfold State.openCall
  try dsimp only
  repeat' first
    | with_reducible exact burstOnly_refl _
    | with_reducible apply burstOnly_trans (k := burstOnly_keeps (State.setAnswer_keeps _ _) rfl)
    | with_reducible apply burstOnly_trans (k := State.endCallR63_burst _)
    | with_reducible apply burstOnly_trans (k := burstOnly_keeps (State.tieJob_keeps _ _) rfl)
    | with_reducible apply burstOnly_trans (k := burstOnly_keeps (State.setPunch_keeps _ _) rfl)
    | with_reducible apply burstOnly_trans (k := State.raise_burst _ _ _)
    | with_reducible apply burstOnly_trans (k := burstOnly_keeps (State.setTracker_keeps _ _) rfl)
    | split

theorem State.outside_burst (s : State) : burstOnly s s.outside := by
  unfold State.outside
  try dsimp only
  repeat' first
    | with_reducible exact burstOnly_refl _
    | with_reducible apply burstOnly_trans (k := burstOnly_keeps (State.setTracker_keeps _ _) rfl)
    | with_reducible apply burstOnly_trans (k := State.endJudging_burst _)

theorem State.openingHeader_burst (s : State) (origin : StationCode) (kind : CallKind) (dest : StationCode) :
    burstOnly s (s.openingHeader origin kind dest) := by
  unfold State.openingHeader
  try dsimp only
  repeat' first
    | with_reducible exact burstOnly_refl _
    | with_reducible apply burstOnly_trans (k := State.openCall_burst _ _ _ _ _)
    | with_reducible apply burstOnly_trans (k := State.outside_burst _)
    | split

theorem State.deliverHeader_burst (s : State) (origin dest : StationCode) :
    burstOnly s (s.deliverHeader origin dest) := by
  unfold State.deliverHeader
  try dsimp only
  repeat' first
    | with_reducible exact burstOnly_refl _
    | with_reducible apply burstOnly_trans (k := State.decide_burst _ _)
    | split

theorem State.fittingHeader_burst (s : State) (origin : StationCode) (kind : SendKind) (dest : StationCode) :
    burstOnly s (s.fittingHeader origin kind dest) := by
  unfold State.fittingHeader
  try dsimp only
  repeat' first
    | with_reducible exact burstOnly_refl _
    | with_reducible apply burstOnly_trans (k := State.deliverHeader_burst _ _ _)
    | with_reducible apply burstOnly_trans (k := burstOnly_keeps (State.modCall_keeps _ _) rfl)
    | with_reducible apply burstOnly_trans (k := burstOnly_keeps (State.yieldAnswered_keeps _) rfl)
    | with_reducible apply burstOnly_trans (k := burstOnly_keeps (State.setTracker_keeps _ _) rfl)
    | split

theorem State.followingHeader_burst (s : State) (origin : StationCode) (kind : SendKind) (dest : StationCode) :
    burstOnly s (s.followingHeader origin kind dest) := by
  unfold State.followingHeader
  try dsimp only
  repeat' first
    | with_reducible exact burstOnly_refl _
    | with_reducible apply burstOnly_trans (k := State.outside_burst _)
    | with_reducible apply burstOnly_trans (k := State.fittingHeader_burst _ _ _ _)
    | split

theorem State.headerResult_burst (s : State) (h : Hdr) : burstOnly s (s.headerResult h) := by
  unfold State.headerResult
  try dsimp only
  repeat' first
    | with_reducible exact burstOnly_refl _
    | with_reducible apply burstOnly_trans (k := State.followingHeader_burst _ _ _ _)
    | with_reducible apply burstOnly_trans (k := burstOnly_keeps (State.setListener_keeps _ _) rfl)
    | with_reducible apply burstOnly_trans (k := State.openingHeader_burst _ _ _ _)
    | with_reducible apply burstOnly_trans (k := State.outside_burst _)
    | with_reducible apply burstOnly_trans (k := State.enterText_burst _)
    | split

theorem State.callText_burst (s : State) (c : Code) (err : Bool) (k : Case) (fn : Option TextFn) :
    burstOnly s (s.callText c err k fn) := by
  unfold State.callText
  try dsimp only
  repeat' first
    | with_reducible exact burstOnly_refl _
    | with_reducible apply burstOnly_trans (k := burstOnly_keeps (State.punchCode_keeps _ _) rfl)
    | with_reducible apply burstOnly_trans (k := burstOnly_keeps (State.dispEom_keeps _ _) rfl)
    | with_reducible apply burstOnly_trans (k := burstOnly_keeps (State.modCall_keeps _ _) rfl)
    | with_reducible apply burstOnly_trans (k := State.passCode_burst _ _ _ _)
    | with_reducible apply burstOnly_trans (k := burstOnly_keeps (State.bellText_keeps _ _) rfl)
    | with_reducible apply burstOnly_trans (k := burstOnly_keeps (State.wruHeard_keeps _) rfl)
    | with_reducible apply burstOnly_trans (k := burstOnly_keeps (State.gatherPoll_keeps _ _ _) rfl)
    | split

theorem State.textChar_burst (s : State) (c : Code) (err : Bool) : burstOnly s (s.textChar c err) := by
  unfold State.textChar
  try dsimp only
  repeat' first
    | with_reducible exact burstOnly_refl _
    | with_reducible apply burstOnly_trans (k := State.callText_burst _ _ _ _ _)
    | with_reducible apply burstOnly_trans (k := burstOnly_keeps (State.setListener_keeps _ _) rfl)
    | split

theorem State.giveRefusalPoint_burst (s : State) : burstOnly s s.giveRefusalPoint := by
  unfold State.giveRefusalPoint
  try dsimp only
  repeat' first
    | with_reducible exact burstOnly_refl _
    | with_reducible apply burstOnly_trans (k := State.refusalPoint_burst _)
    | with_reducible apply burstOnly_trans (k := burstOnly_keeps (State.setListener_keeps _ _) rfl)
    | split

theorem State.giveWindowEnd_burst (s : State) : burstOnly s s.giveWindowEnd := by
  unfold State.giveWindowEnd
  try dsimp only
  repeat' first
    | with_reducible exact burstOnly_refl _
    | with_reducible apply burstOnly_trans (k := State.enterText_burst _)
    | with_reducible apply burstOnly_trans (k := State.decideWindow_burst _)
    | split

theorem State.earlyChar_burst (s : State) (c : Code) (err : Bool) : burstOnly s (s.earlyChar c err) := by
  unfold State.earlyChar
  try dsimp only
  repeat' first
    | with_reducible exact burstOnly_refl _
    | with_reducible apply burstOnly_trans (k := State.giveRefusalPoint_burst _)
    | with_reducible apply burstOnly_trans (k := State.giveWindowEnd_burst _)
    | with_reducible apply burstOnly_trans (k := State.textChar_burst _ _ _)
    | split

theorem State.character_burst (s : State) (c : Code) (err : Bool) : burstOnly s (s.character c err) := by
  unfold State.character
  try dsimp only
  repeat' first
    | with_reducible exact burstOnly_refl _
    | with_reducible apply burstOnly_trans (k := State.earlyChar_burst _ _ _)
    | with_reducible apply burstOnly_trans (k := State.textChar_burst _ _ _)
    | with_reducible apply burstOnly_trans (k := State.headerResult_burst _ _)
    | with_reducible apply burstOnly_trans (k := burstOnly_keeps (State.setListener_keeps _ _) rfl)
    | split

theorem State.unframed_burst (s : State) : burstOnly s s.unframed := by
  unfold State.unframed
  try dsimp only
  repeat' first
    | with_reducible exact burstOnly_refl _
    | with_reducible apply burstOnly_trans (k := State.outside_burst _)
    | with_reducible apply burstOnly_trans (k := burstOnly_keeps (State.setListener_keeps _ _) rfl)
    | split

theorem State.report_burst (s : State) (r : Report) : burstOnly s (s.report r) := by
  cases r <;> unfold State.report
  · exact burstOnly_keeps (State.leadIn_keeps s) rfl
  · exact State.unframed_burst s
  · exact burstOnly_keeps (State.markElement_keeps s) rfl
  · exact burstOnly_keeps (State.errorEvent_keeps s) rfl
  · exact burstOnly_trans (burstOnly_keeps (State.trackDistortion_keeps s _) rfl) (State.character_burst _ _ _)

theorem State.callRest_burst (s : State) : burstOnly s s.callRest := by
  unfold State.callRest
  try dsimp only
  repeat' first
    | with_reducible exact burstOnly_refl _
    | with_reducible apply burstOnly_trans (k := State.endCallR63_burst _)
    | with_reducible apply burstOnly_trans (k := burstOnly_keeps (State.modCall_keeps _ _) rfl)
    | split

theorem State.callBreak_burst (s : State) : burstOnly s s.callBreak := by
  unfold State.callBreak
  try dsimp only
  repeat' first
    | with_reducible exact burstOnly_refl _
    | with_reducible apply burstOnly_trans (k := State.endCallR63_burst _)
    | with_reducible apply burstOnly_trans (k := State.endCall_burst _ _)
    | split

theorem State.frameSample_burst (s : State) (x : Level) : burstOnly s (s.frameSample x) := by
  unfold State.frameSample
  dsimp only
  refine burstOnly_trans ?_ (burstOnly_foldl _ (fun t a => State.report_burst t a) _ _)
  exact burstOnly_keeps (keeps_step (keeps_mono (State.setFramer_keeps _ _) rfl) (State.setGauge_keeps _ _) rfl :
    keeps [.framer, .gauge] _ _) rfl

theorem State.standDown_burst (s : State) : burstOnly s s.standDown := by
  unfold State.standDown
  try dsimp only
  repeat' first
    | with_reducible exact burstOnly_refl _
    | with_reducible apply burstOnly_trans (k := State.frameSample_burst _ _)
    | with_reducible apply burstOnly_trans (k := burstOnly_keeps (State.setGauge_keeps _ _) rfl)
    | with_reducible apply burstOnly_trans (k := burstOnly_keeps (State.setFramer_keeps _ _) rfl)
    | split

theorem State.notReady_burst (s : State) : burstOnly s s.notReady := by
  unfold State.notReady
  try dsimp only
  repeat' first
    | with_reducible exact burstOnly_refl _
    | with_reducible apply burstOnly_trans (k := State.switchDirect_burst _)
    | with_reducible apply burstOnly_trans (k := burstOnly_keeps (State.setPrinter_keeps _ _) rfl)
    | with_reducible apply burstOnly_trans (k := burstOnly_keeps (State.raiseHigh_keeps _ _) rfl)

theorem State.paperOut_burst (s : State) : burstOnly s s.paperOut := by
  unfold State.paperOut
  try dsimp only
  repeat' first
    | with_reducible exact burstOnly_refl _
    | with_reducible apply burstOnly_trans (k := State.notReady_burst _)
    | with_reducible apply burstOnly_trans (k := burstOnly_keeps (State.setPrinter_keeps _ _) rfl)
    | with_reducible apply burstOnly_trans (k := burstOnly_keeps (State.raiseNone_keeps _ _) rfl)

theorem State.faultAsserted_burst (s : State) : burstOnly s s.faultAsserted := by
  unfold State.faultAsserted
  try dsimp only
  repeat' first
    | with_reducible exact burstOnly_refl _
    | with_reducible apply burstOnly_trans (k := State.notReady_burst _)
    | with_reducible apply burstOnly_trans (k := burstOnly_keeps (State.setPrinter_keeps _ _) rfl)

theorem State.speedLost_burst (s : State) : burstOnly s s.speedLost := by
  unfold State.speedLost
  try dsimp only
  repeat' first
    | with_reducible exact burstOnly_refl _
    | with_reducible apply burstOnly_trans (k := State.notReady_burst _)
    | with_reducible apply burstOnly_trans (k := burstOnly_keeps (State.setPrinter_keeps _ _) rfl)

theorem State.startTimeout_burst (s : State) : burstOnly s s.startTimeout := by
  unfold State.startTimeout
  try dsimp only
  repeat' first
    | with_reducible exact burstOnly_refl _
    | with_reducible apply burstOnly_trans (k := State.notReady_burst _)
    | with_reducible apply burstOnly_trans (k := burstOnly_keeps (State.setPrinter_keeps _ _) rfl)

end Sys2Proof.Machine
end

