-- ==== Sys2Proof/Laws/NoCall.lean ====
section
/-! SUPPORT. With no call held, events, texts and the ends of jobs, messages and collections leave the Call Tracker as it
is. -/

namespace Sys2Proof.Machine

open Sys2Proof.Safety

/-- With no call held, the Call Tracker stays as it is. -/
def noCallTo (s t : State) : Prop := s.tracker.call = none → t.tracker = s.tracker

theorem noCallTo_refl (s : State) : noCallTo s s := fun _ => rfl

theorem noCallTo_trans {s t u : State} (h : noCallTo s t) (k : noCallTo t u) : noCallTo s u := fun n =>
  (k (by rw [h n]; exact n)).trans (h n)

/-- An operation that keeps the Call Tracker. -/
theorem noCallTo_keeps {as : List Block} {s t : State} (k : keeps as s t) (d : as.contains .tracker = false) :
    noCallTo s t := fun _ => k .tracker (by simpa using d)

theorem noCallTo_foldl {α : Type} (f : State → α → State) (hf : ∀ t a, noCallTo t (f t a)) (xs : List α) (s : State) :
    noCallTo s (xs.foldl f s) := by
  induction xs generalizing s with
  | nil => exact noCallTo_refl s
  | cons x xs ih => exact noCallTo_trans (hf s x) (ih (f s x))

theorem State.modCall_noCall (s : State) (f : Call → Call) : noCallTo s (s.modCall f) := by
  intro h
  simp only [State.modCall, State.setTracker, h, Option.map_none]
  rw [← h]

theorem State.modLog_noCall (s : State) (f : LogRecord → LogRecord) : noCallTo s (s.modLog f) := by
  unfold State.modLog
  try dsimp only
  repeat' first
    | with_reducible exact noCallTo_refl _
    | with_reducible apply noCallTo_trans (k := State.modCall_noCall _ _)

theorem State.putDisp_noCall (s : State) (d : DispRecord) : noCallTo s (s.putDisp d) := by
  unfold State.putDisp
  try dsimp only
  repeat' first
    | with_reducible exact noCallTo_refl _
    | with_reducible apply noCallTo_trans (k := noCallTo_keeps (State.setAnswer_keeps _ _) rfl)
    | with_reducible apply noCallTo_trans (k := State.modLog_noCall _ _)
    | split

theorem State.loseRest_noCall (s : State) (d : DispRecord) : noCallTo s (s.loseRest d) := by
  unfold State.loseRest
  try dsimp only
  repeat' first
    | with_reducible exact noCallTo_refl _
    | with_reducible apply noCallTo_trans (k := State.putDisp_noCall _ _)
    | with_reducible apply noCallTo_trans (k := noCallTo_keeps (State.requestBurst_keeps _) rfl)
    | split

theorem State.createReceived_noCall (s : State) (d : DispRecord) (continued : Bool) :
    noCallTo s (s.createReceived d continued).1 := by
  unfold State.createReceived
  try dsimp only
  repeat' first
    | with_reducible exact noCallTo_refl _
    | with_reducible apply noCallTo_trans (k := State.modLog_noCall _ _)
    | with_reducible apply noCallTo_trans (k := noCallTo_keeps (State.setStore_keeps _ _) rfl)
    | split

theorem State.switchOver_noCall (s : State) (d : DispRecord) : noCallTo s (s.switchOver d) := by
  unfold State.switchOver
  try dsimp only
  repeat' first
    | with_reducible exact noCallTo_refl _
    | with_reducible apply noCallTo_trans (k := State.putDisp_noCall _ _)
    | with_reducible apply noCallTo_trans (k := noCallTo_keeps (State.setPrinter_keeps _ _) rfl)
    | with_reducible apply noCallTo_trans (k := State.createReceived_noCall _ _ _)
    | with_reducible apply noCallTo_trans (k := State.loseRest_noCall _ _)
    | split

theorem State.switchDirect_noCall (s : State) : noCallTo s s.switchDirect := by
  unfold State.switchDirect
  try dsimp only
  repeat' first
    | with_reducible exact noCallTo_refl _
    | with_reducible apply noCallTo_trans (k := State.switchOver_noCall _ _)
    | split

theorem State.claimPunch_noCall (s : State) : noCallTo s s.claimPunch := by
  unfold State.claimPunch
  try dsimp only
  repeat' first
    | with_reducible exact noCallTo_refl _
    | with_reducible apply noCallTo_trans (k := State.modLog_noCall _ _)
    | with_reducible apply noCallTo_trans (k := noCallTo_keeps (State.setPunch_keeps _ _) rfl)
    | split

theorem State.punchCall_noCall (s : State) : noCallTo s s.punchCall := by
  unfold State.punchCall
  try dsimp only
  repeat' first
    | with_reducible exact noCallTo_refl _
    | with_reducible apply noCallTo_trans (k := noCallTo_keeps (State.setPunch_keeps _ _) rfl)
    | with_reducible apply noCallTo_trans (k := State.claimPunch_noCall _)
    | split

theorem State.spoolCall_noCall (s : State) : noCallTo s s.spoolCall := by
  unfold State.spoolCall
  try dsimp only
  repeat' first
    | with_reducible exact noCallTo_refl _
    | with_reducible apply noCallTo_trans (k := State.putDisp_noCall _ _)
    | with_reducible apply noCallTo_trans (k := noCallTo_keeps (State.setAnswer_keeps _ _) rfl)
    | with_reducible apply noCallTo_trans (k := State.switchOver_noCall _ _)
    | split

theorem State.doAction_noCall (s : State) (serial : Option Nat) (a : BitVec 4) :
    noCallTo s (s.doAction serial a) := by
  unfold State.doAction
  try dsimp only
  repeat' first
    | with_reducible exact noCallTo_refl _
    | with_reducible apply noCallTo_trans (k := noCallTo_keeps (State.punchStop_keeps _) rfl)
    | with_reducible apply noCallTo_trans (k := noCallTo_keeps (State.setPrinter_keeps _ _) rfl)
    | with_reducible apply noCallTo_trans (k := noCallTo_keeps (State.setStore_keeps _ _) rfl)
    | with_reducible apply noCallTo_trans (k := noCallTo_keeps (State.setLinks_keeps _ _) rfl)
    | with_reducible apply noCallTo_trans (k := State.spoolCall_noCall _)
    | with_reducible apply noCallTo_trans (k := State.punchCall_noCall _)
    | split

theorem State.punchCode_noCall (s : State) (c : Code) : noCallTo s (s.punchCode c) := by
  unfold State.punchCode
  try dsimp only
  repeat' first
    | with_reducible exact noCallTo_refl _
    | with_reducible apply noCallTo_trans (k := State.modLog_noCall _ _)
    | with_reducible apply noCallTo_trans (k := noCallTo_keeps (State.setPunch_keeps _ _) rfl)
    | split

theorem State.lateCode_noCall (s : State) (e : Event) : noCallTo s (s.lateCode e) := by
  unfold State.lateCode
  repeat' first
    | with_reducible exact noCallTo_refl _
    | with_reducible exact State.punchCode_noCall _ _
    | split

theorem State.takeEvent_noCall (s : State) (d : Unseen) (e : Event) : noCallTo s (s.takeEvent d e) := by
  unfold State.takeEvent
  exact noCallTo_trans (noCallTo_foldl _ (fun t a => State.doAction_noCall t e.call a) _ s) (State.lateCode_noCall _ e)

theorem State.raise_noCall (s : State) (ev : BitVec 4) (serial : Option Nat) : noCallTo s (s.raise ev serial) :=
  noCallTo_keeps (State.raise_keeps s ev serial) rfl

theorem State.bellText_noCall (s : State) (c : Code) : noCallTo s (s.bellText c) := by
  unfold State.bellText
  try dsimp only
  repeat' first
    | with_reducible exact noCallTo_refl _
    | with_reducible apply noCallTo_trans (k := State.punchCode_noCall _ _)
    | with_reducible apply noCallTo_trans (k := State.raise_noCall _ _ _)
    | with_reducible apply noCallTo_trans (k := noCallTo_keeps (State.raiseEvent_keeps _ _) rfl)
    | with_reducible apply noCallTo_trans (k := noCallTo_keeps (State.setLinks_keeps _ _) rfl)
    | split

theorem State.endDeliver_noCall (s : State) (broken : Bool) : noCallTo s (s.endDeliver broken) := by
  unfold State.endDeliver
  try dsimp only
  repeat' first
    | with_reducible exact noCallTo_refl _
    | with_reducible apply noCallTo_trans (k := noCallTo_keeps (State.setStore_keeps _ _) rfl)
    | with_reducible apply noCallTo_trans (k := noCallTo_keeps (State.setPrinter_keeps _ _) rfl)
    | with_reducible apply noCallTo_trans (k := noCallTo_keeps (State.setAnswer_keeps _ _) rfl)
    | with_reducible apply noCallTo_trans (k := State.modLog_noCall _ _)
    | split

theorem State.endCall_noCall (s : State) (o : CallOutcome) : noCallTo s (s.endCall o) := by
  intro h
  have k := State.endDeliver_noCall s false h
  unfold State.endCall
  simp only [k, h]

theorem State.endCallR63_noCall (s : State) : noCallTo s s.endCallR63 := by
  unfold State.endCallR63
  try dsimp only
  repeat' first
    | with_reducible exact noCallTo_refl _
    | with_reducible apply noCallTo_trans (k := State.endCall_noCall _ _)
    | split

theorem State.endJudging_noCall (s : State) : noCallTo s s.endJudging := by
  unfold State.endJudging
  try dsimp only
  repeat' first
    | with_reducible exact noCallTo_refl _
    | with_reducible apply noCallTo_trans (k := State.endCallR63_noCall _)
    | split

theorem State.tryDirect_noCall (s : State) (d : DispRecord) (t : State) (h : s.tryDirect d = some t) : noCallTo s t := by
  unfold State.tryDirect at h
  split at h
  · cases h
    exact noCallTo_trans (noCallTo_keeps (State.setPrinter_keeps _ _) rfl) (State.putDisp_noCall _ _)
  · cases h

theorem State.trySpool_noCall (s : State) (d : DispRecord) : noCallTo s (s.trySpool d).1 := by
  unfold State.trySpool
  try dsimp only
  repeat' first
    | with_reducible exact noCallTo_refl _
    | with_reducible apply noCallTo_trans (k := State.putDisp_noCall _ _)
    | with_reducible apply noCallTo_trans (k := State.createReceived_noCall _ _ _)
    | with_reducible apply noCallTo_trans (k := noCallTo_keeps (State.raiseHigh_keeps _ _) rfl)
    | split

theorem State.noPlace_noCall (s : State) (d : DispRecord) : noCallTo s (s.noPlace d) := by
  unfold State.noPlace
  try dsimp only
  repeat' first
    | with_reducible exact noCallTo_refl _
    | with_reducible apply noCallTo_trans (k := State.putDisp_noCall _ _)
    | with_reducible apply noCallTo_trans (k := noCallTo_keeps (State.requestBurst_keeps _) rfl)
    | split

theorem State.decide_noCall (s : State) (d : DispRecord) : noCallTo s (s.decide d) := by
  unfold State.decide
  dsimp only
  split
  · split
    · exact State.trySpool_noCall s d
    · cases h : (s.trySpool d).1.tryDirect d with
      | none => exact noCallTo_trans (State.trySpool_noCall s d) (State.noPlace_noCall _ _)
      | some t => exact noCallTo_trans (State.trySpool_noCall s d) (State.tryDirect_noCall _ _ t h)
  · split
    · exact State.tryDirect_noCall _ _ _ (by assumption)
    · split
      · exact State.trySpool_noCall s d
      · exact noCallTo_trans (State.trySpool_noCall s d) (State.noPlace_noCall _ _)

theorem State.refusalPoint_noCall (s : State) : noCallTo s s.refusalPoint := by
  unfold State.refusalPoint
  try dsimp only
  repeat' first
    | with_reducible exact noCallTo_refl _
    | with_reducible apply noCallTo_trans (k := State.putDisp_noCall _ _)
    | with_reducible apply noCallTo_trans (k := noCallTo_keeps (State.requestBurst_keeps _) rfl)
    | split

theorem State.decideWindow_noCall (s : State) : noCallTo s s.decideWindow := by
  unfold State.decideWindow
  try dsimp only
  repeat' first
    | with_reducible exact noCallTo_refl _
    | with_reducible apply noCallTo_trans (k := State.decide_noCall _ _)
    | split

theorem State.spoolCell_noCall (s : State) (d : DispRecord) (c : Code) (err text : Bool) :
    noCallTo s (s.spoolCell d c err text) := by
  unfold State.spoolCell
  try dsimp only
  repeat' first
    | with_reducible exact noCallTo_refl _
    | with_reducible apply noCallTo_trans (k := State.putDisp_noCall _ _)
    | with_reducible apply noCallTo_trans (k := noCallTo_keeps (State.setStore_keeps _ _) rfl)
    | with_reducible apply noCallTo_trans (k := noCallTo_keeps (State.raiseHigh_keeps _ _) rfl)
    | with_reducible apply noCallTo_trans (k := State.loseRest_noCall _ _)
    | split

theorem State.spoolShift_noCall (s : State) : noCallTo s s.spoolShift := by
  unfold State.spoolShift
  try dsimp only
  repeat' first
    | with_reducible exact noCallTo_refl _
    | with_reducible apply noCallTo_trans (k := State.spoolCell_noCall _ _ _ _ _)
    | split

theorem State.spoolCode_noCall (s : State) (c : Code) (err : Bool) : noCallTo s (s.spoolCode c err) := by
  unfold State.spoolCode
  try dsimp only
  repeat' first
    | with_reducible exact noCallTo_refl _
    | with_reducible apply noCallTo_trans (k := State.spoolCell_noCall _ _ _ _ _)
    | with_reducible apply noCallTo_trans (k := State.spoolShift_noCall _)
    | split

theorem State.printFull_noCall (s : State) (d : DispRecord) (c : Code) (err : Bool) :
    noCallTo s (s.printFull d c err) := by
  unfold State.printFull
  try dsimp only
  repeat' first
    | with_reducible exact noCallTo_refl _
    | with_reducible apply noCallTo_trans (k := State.switchOver_noCall _ _)
    | with_reducible apply noCallTo_trans (k := State.spoolCode_noCall _ _ _)
    | with_reducible apply noCallTo_trans (k := noCallTo_keeps (State.raiseHigh_keeps _ _) rfl)

theorem State.passCode_noCall (s : State) (c : Code) (err : Bool) (k : Case) : noCallTo s (s.passCode c err k) := by
  unfold State.passCode
  try dsimp only
  repeat' first
    | with_reducible exact noCallTo_refl _
    | with_reducible apply noCallTo_trans (k := State.putDisp_noCall _ _)
    | with_reducible apply noCallTo_trans (k := State.spoolCode_noCall _ _ _)
    | with_reducible apply noCallTo_trans (k := noCallTo_keeps (State.setPrinter_keeps _ _) rfl)
    | with_reducible apply noCallTo_trans (k := State.printFull_noCall _ _ _ _)
    | split

theorem State.markDoubtful_noCall (s : State) : noCallTo s s.markDoubtful := by
  unfold State.markDoubtful
  try dsimp only
  repeat' first
    | with_reducible exact noCallTo_refl _
    | with_reducible apply noCallTo_trans (k := State.modLog_noCall _ _)
    | with_reducible apply noCallTo_trans (k := noCallTo_keeps (State.setStore_keeps _ _) rfl)
    | split

theorem State.textStartPunch_noCall (s : State) : noCallTo s s.textStartPunch := by
  unfold State.textStartPunch
  try dsimp only
  repeat' first
    | with_reducible exact noCallTo_refl _
    | with_reducible apply noCallTo_trans (k := State.claimPunch_noCall _)
    | split

theorem State.textStart_noCall (s : State) : noCallTo s s.textStart := by
  unfold State.textStart
  try dsimp only
  repeat' first
    | with_reducible exact noCallTo_refl _
    | with_reducible apply noCallTo_trans (k := State.modCall_noCall _ _)
    | with_reducible apply noCallTo_trans (k := State.textStartPunch_noCall _)
    | split

theorem State.dispTextStart_noCall (s : State) : noCallTo s s.dispTextStart := by
  unfold State.dispTextStart
  try dsimp only
  repeat' first
    | with_reducible exact noCallTo_refl _
    | with_reducible apply noCallTo_trans (k := State.spoolCell_noCall _ _ _ _ _)
    | with_reducible apply noCallTo_trans (k := State.putDisp_noCall _ _)
    | split

theorem State.enterText_noCall (s : State) : noCallTo s s.enterText := by
  unfold State.enterText
  try dsimp only
  repeat' first
    | with_reducible exact noCallTo_refl _
    | with_reducible apply noCallTo_trans (k := State.textStart_noCall _)
    | with_reducible apply noCallTo_trans (k := State.markDoubtful_noCall _)
    | with_reducible apply noCallTo_trans (k := State.dispTextStart_noCall _)
    | with_reducible apply noCallTo_trans (k := noCallTo_keeps (State.setListener_keeps _ _) rfl)
    | split

theorem State.holdTimeout_noCall (s : State) : noCallTo s s.holdTimeout := by
  unfold State.holdTimeout
  try dsimp only
  repeat' first
    | with_reducible exact noCallTo_refl _
    | with_reducible apply noCallTo_trans (k := noCallTo_keeps (State.enterStopping_keeps _) rfl)
    | with_reducible apply noCallTo_trans (k := State.modLog_noCall _ _)
    | with_reducible apply noCallTo_trans (k := noCallTo_keeps (State.awaitStopping_keeps _) rfl)
    | split

theorem State.classifyWatch_noCall (s : State) : noCallTo s s.classifyWatch := by
  unfold State.classifyWatch
  try dsimp only
  repeat' first
    | with_reducible exact noCallTo_refl _
    | with_reducible apply noCallTo_trans (k := noCallTo_keeps (State.finishJob_keeps _ _) rfl)
    | with_reducible apply noCallTo_trans (k := noCallTo_keeps (State.recontend_keeps _) rfl)
    | with_reducible apply noCallTo_trans (k := State.endCall_noCall _ _)
    | split

theorem State.breakKey_noCall (s : State) : noCallTo s s.breakKey := by
  unfold State.breakKey
  try dsimp only
  repeat' first
    | with_reducible exact noCallTo_refl _
    | with_reducible apply noCallTo_trans (k := noCallTo_keeps (State.finishJob_keeps _ _) rfl)
    | with_reducible apply noCallTo_trans (k := noCallTo_keeps (State.setLiu_keeps _ _) rfl)
    | with_reducible apply noCallTo_trans (k := noCallTo_keeps (State.requestBurst_keeps _) rfl)
    | with_reducible apply noCallTo_trans (k := State.endCall_noCall _ _)
    | split

theorem State.deliverHeader_noCall (s : State) (origin dest : StationCode) :
    noCallTo s (s.deliverHeader origin dest) := by
  unfold State.deliverHeader
  try dsimp only
  repeat' first
    | with_reducible exact noCallTo_refl _
    | with_reducible apply noCallTo_trans (k := State.decide_noCall _ _)
    | split

theorem State.callText_noCall (s : State) (c : Code) (err : Bool) (k : Case) (fn : Option TextFn) :
    noCallTo s (s.callText c err k fn) := by
  unfold State.callText
  try dsimp only
  repeat' first
    | with_reducible exact noCallTo_refl _
    | with_reducible apply noCallTo_trans (k := State.punchCode_noCall _ _)
    | with_reducible apply noCallTo_trans (k := noCallTo_keeps (State.dispEom_keeps _ _) rfl)
    | with_reducible apply noCallTo_trans (k := State.modCall_noCall _ _)
    | with_reducible apply noCallTo_trans (k := State.passCode_noCall _ _ _ _)
    | with_reducible apply noCallTo_trans (k := State.bellText_noCall _ _)
    | with_reducible apply noCallTo_trans (k := noCallTo_keeps (State.wruHeard_keeps _) rfl)
    | with_reducible apply noCallTo_trans (k := noCallTo_keeps (State.gatherPoll_keeps _ _ _) rfl)
    | split

theorem State.textChar_noCall (s : State) (c : Code) (err : Bool) : noCallTo s (s.textChar c err) := by
  unfold State.textChar
  try dsimp only
  repeat' first
    | with_reducible exact noCallTo_refl _
    | with_reducible apply noCallTo_trans (k := State.callText_noCall _ _ _ _ _)
    | with_reducible apply noCallTo_trans (k := noCallTo_keeps (State.setListener_keeps _ _) rfl)
    | split

theorem State.giveRefusalPoint_noCall (s : State) : noCallTo s s.giveRefusalPoint := by
  unfold State.giveRefusalPoint
  try dsimp only
  repeat' first
    | with_reducible exact noCallTo_refl _
    | with_reducible apply noCallTo_trans (k := State.refusalPoint_noCall _)
    | with_reducible apply noCallTo_trans (k := noCallTo_keeps (State.setListener_keeps _ _) rfl)
    | split

theorem State.giveWindowEnd_noCall (s : State) : noCallTo s s.giveWindowEnd := by
  unfold State.giveWindowEnd
  try dsimp only
  repeat' first
    | with_reducible exact noCallTo_refl _
    | with_reducible apply noCallTo_trans (k := State.enterText_noCall _)
    | with_reducible apply noCallTo_trans (k := State.decideWindow_noCall _)
    | split

theorem State.earlyChar_noCall (s : State) (c : Code) (err : Bool) : noCallTo s (s.earlyChar c err) := by
  unfold State.earlyChar
  try dsimp only
  repeat' first
    | with_reducible exact noCallTo_refl _
    | with_reducible apply noCallTo_trans (k := State.giveRefusalPoint_noCall _)
    | with_reducible apply noCallTo_trans (k := State.giveWindowEnd_noCall _)
    | with_reducible apply noCallTo_trans (k := State.textChar_noCall _ _ _)
    | split

theorem State.restEnded_noCall (s : State) : noCallTo s s.restEnded := by
  unfold State.restEnded
  try dsimp only
  repeat' first
    | with_reducible exact noCallTo_refl _
    | with_reducible apply noCallTo_trans (k := noCallTo_keeps (State.senderRestEnded_keeps _) rfl)
    | with_reducible apply noCallTo_trans (k := noCallTo_keeps (State.setLiu_keeps _ _) rfl)
    | with_reducible apply noCallTo_trans (k := State.modCall_noCall _ _)
    | with_reducible apply noCallTo_trans (k := noCallTo_keeps (State.setListener_keeps _ _) rfl)
    | split

theorem State.callRest_noCall (s : State) : noCallTo s s.callRest := by
  unfold State.callRest
  try dsimp only
  repeat' first
    | with_reducible exact noCallTo_refl _
    | with_reducible apply noCallTo_trans (k := State.endCallR63_noCall _)
    | with_reducible apply noCallTo_trans (k := State.modCall_noCall _ _)
    | split

theorem State.callBreak_noCall (s : State) : noCallTo s s.callBreak := by
  unfold State.callBreak
  try dsimp only
  repeat' first
    | with_reducible exact noCallTo_refl _
    | with_reducible apply noCallTo_trans (k := State.endCallR63_noCall _)
    | with_reducible apply noCallTo_trans (k := State.endCall_noCall _ _)
    | split

theorem State.flagChange_noCall (s : State) : noCallTo s s.flagChange := by
  unfold State.flagChange
  try dsimp only
  repeat' first
    | with_reducible exact noCallTo_refl _
    | with_reducible apply noCallTo_trans (k := State.markDoubtful_noCall _)
    | with_reducible apply noCallTo_trans (k := noCallTo_keeps (State.setQuality_keeps _ _) rfl)
    | with_reducible apply noCallTo_trans (k := noCallTo_keeps (State.raiseNone_keeps _ _) rfl)
    | split

theorem State.notReady_noCall (s : State) : noCallTo s s.notReady := by
  unfold State.notReady
  try dsimp only
  repeat' first
    | with_reducible exact noCallTo_refl _
    | with_reducible apply noCallTo_trans (k := State.switchDirect_noCall _)
    | with_reducible apply noCallTo_trans (k := noCallTo_keeps (State.setPrinter_keeps _ _) rfl)
    | with_reducible apply noCallTo_trans (k := noCallTo_keeps (State.raiseHigh_keeps _ _) rfl)

theorem State.paperOut_noCall (s : State) : noCallTo s s.paperOut := by
  unfold State.paperOut
  try dsimp only
  repeat' first
    | with_reducible exact noCallTo_refl _
    | with_reducible apply noCallTo_trans (k := State.notReady_noCall _)
    | with_reducible apply noCallTo_trans (k := noCallTo_keeps (State.setPrinter_keeps _ _) rfl)
    | with_reducible apply noCallTo_trans (k := noCallTo_keeps (State.raiseNone_keeps _ _) rfl)

theorem State.faultAsserted_noCall (s : State) : noCallTo s s.faultAsserted := by
  unfold State.faultAsserted
  try dsimp only
  repeat' first
    | with_reducible exact noCallTo_refl _
    | with_reducible apply noCallTo_trans (k := State.notReady_noCall _)
    | with_reducible apply noCallTo_trans (k := noCallTo_keeps (State.setPrinter_keeps _ _) rfl)

theorem State.speedLost_noCall (s : State) : noCallTo s s.speedLost := by
  unfold State.speedLost
  try dsimp only
  repeat' first
    | with_reducible exact noCallTo_refl _
    | with_reducible apply noCallTo_trans (k := State.notReady_noCall _)
    | with_reducible apply noCallTo_trans (k := noCallTo_keeps (State.setPrinter_keeps _ _) rfl)

theorem State.startTimeout_noCall (s : State) : noCallTo s s.startTimeout := by
  unfold State.startTimeout
  try dsimp only
  repeat' first
    | with_reducible exact noCallTo_refl _
    | with_reducible apply noCallTo_trans (k := State.notReady_noCall _)
    | with_reducible apply noCallTo_trans (k := noCallTo_keeps (State.setPrinter_keeps _ _) rfl)

end Sys2Proof.Machine
end

