-- ==== Sys2Proof/Laws/Memory.lean ====
section
/-! SUPPORT. The laws of the store's memory (R127): canonical form, read after write; and the debouncers. -/

namespace Sys2Proof.Machine

/-! ### Canonical form -/

theorem Memory.wfFrom_cons (lo a : Nat) (c : Cell) (m : Memory) :
    Memory.wfFrom lo ((a, c) :: m) = true ↔ lo ≤ a ∧ c ≠ .blank ∧ Memory.wfFrom (a + 1) m = true := by
  simp [Memory.wfFrom, and_assoc]

theorem Memory.wfFrom_mono {lo hi : Nat} (m : Memory) (h : lo ≤ hi) (w : Memory.wfFrom hi m = true) :
    Memory.wfFrom lo m = true := by
  cases m with
  | nil => rfl
  | cons x xs => obtain ⟨a, c⟩ := x; rw [wfFrom_cons] at *; exact ⟨le_trans h w.1, w.2⟩

/-- A write keeps the canonical form, above any bound that the address meets. -/
theorem Memory.write_wfFrom (m : Memory) (a : Nat) (c : Cell) (lo : Nat) (h : lo ≤ a)
    (w : Memory.wfFrom lo m = true) : Memory.wfFrom lo (Memory.write m a c) = true := by
  induction m generalizing lo with
  | nil =>
    by_cases hc : c = .blank
    · simp [Memory.write, hc, Memory.wfFrom]
    · simp [Memory.write, hc, Memory.wfFrom, h]
  | cons x xs ih =>
    obtain ⟨b, d⟩ := x
    rw [wfFrom_cons] at w
    obtain ⟨hb, hd, hx⟩ := w
    by_cases h1 : a < b
    · by_cases hc : c = .blank
      · simp only [Memory.write, h1, hc, if_true]; exact (wfFrom_cons ..).2 ⟨hb, hd, hx⟩
      · simp only [Memory.write, h1, hc, if_true, if_false]
        exact (wfFrom_cons ..).2 ⟨h, hc, (wfFrom_cons ..).2 ⟨h1, hd, hx⟩⟩
    · by_cases h2 : a = b
      · subst h2
        by_cases hc : c = .blank
        · simp only [Memory.write, lt_irrefl, hc, if_true, if_false]
          exact wfFrom_mono xs (by omega) hx
        · simp only [Memory.write, lt_irrefl, hc, if_true, if_false]
          exact (wfFrom_cons ..).2 ⟨h, hc, hx⟩
      · simp only [Memory.write, h1, h2, if_false]
        exact (wfFrom_cons ..).2 ⟨hb, hd, ih (b + 1) (by omega) hx⟩

/-- A write keeps the canonical form. -/
theorem Memory.write_wf (m : Memory) (a : Nat) (c : Cell) (w : Memory.wf m = true) :
    Memory.wf (Memory.write m a c) = true :=
  write_wfFrom m a c 0 (Nat.zero_le a) w

/-- The memory after reset has the canonical form. -/
theorem Memory.reset_wf : Memory.wf State.reset.store.cells = true := rfl

/-! ### Read after write -/

/-- An address below every listed one reads as blank. -/
theorem Memory.read_below (m : Memory) (a lo : Nat) (h : a < lo) (w : Memory.wfFrom lo m = true) :
    Memory.read m a = .blank := by
  induction m generalizing lo with
  | nil => rfl
  | cons x xs ih =>
    obtain ⟨b, d⟩ := x
    rw [wfFrom_cons] at w
    have hb : a ≠ b := by omega
    simp only [Memory.read, hb, if_false]
    exact ih (b + 1) (by omega) w.2.2

/-- A read of an address after a write of it gives the cell written, another address reads as before. -/
theorem Memory.read_write (m : Memory) (a b : Nat) (c : Cell) (w : Memory.wf m = true) :
    Memory.read (Memory.write m a c) b = if b = a then c else Memory.read m b := by
  suffices h : ∀ lo, Memory.wfFrom lo m = true →
      Memory.read (Memory.write m a c) b = if b = a then c else Memory.read m b from h 0 w
  clear w
  induction m with
  | nil =>
    intro lo _
    by_cases hc : c = .blank
    · simp [Memory.write, Memory.read, hc]
    · simp [Memory.write, Memory.read, hc]
  | cons x xs ih =>
    intro lo w
    obtain ⟨k, d⟩ := x
    rw [wfFrom_cons] at w
    obtain ⟨hb, hd, hx⟩ := w
    by_cases h1 : a < k
    · by_cases hc : c = .blank
      · simp only [Memory.write, h1, hc, if_true]
        by_cases hba : b = a
        · subst hba
          have hk : b ≠ k := by omega
          simp only [Memory.read, hk, if_false, if_true]
          exact read_below xs b (k + 1) (by omega) hx
        · simp [hba]
      · simp only [Memory.write, h1, hc, if_true, if_false, Memory.read]
    · by_cases h2 : a = k
      · subst h2
        by_cases hc : c = .blank
        · simp only [Memory.write, lt_irrefl, hc, if_true, if_false, Memory.read]
          by_cases hba : b = a
          · subst hba; simp only [if_true]; exact read_below xs b (b + 1) (by omega) hx
          · simp [hba]
        · simp only [Memory.write, lt_irrefl, hc, if_true, if_false, Memory.read]
          by_cases hba : b = a <;> simp [hba]
      · simp only [Memory.write, h1, h2, if_false, Memory.read]
        by_cases hbk : b = k
        · subst hbk
          have : b ≠ a := fun h => h2 h.symm
          simp [this]
        · simp only [hbk, if_false]; exact ih (k + 1) hx

/-! ### Cells and debouncing -/

/-- R127: a cell as a writer leaves it passes the parity check. -/
theorem Cell.make_good (c : Code) (e : Bool) : (Cell.make c e).good = true := by
  simp only [Cell.make, Cell.good]; cases oddOnes c <;> cases e <;> rfl

/-- A reading that agrees with the debounced state clears the count. -/
@[simp] theorem Debounce.read_same (d : Debounce) : d.read d.on = { d with count := 0 } := by simp [Debounce.read]

/-- A debouncer's state changes only by `change`. -/
@[simp] theorem Debounce.read_on (d : Debounce) (x : Bool) : (d.read x).on = d.on := by
  simp only [Debounce.read]; split <;> rfl

/-- A key's state changes only at its event. -/
@[simp] theorem Key.read_down (k : Key) (x : Bool) : (k.read x).down = k.down := by
  simp only [Key.read]; split <;> rfl

/-- A switch's position changes only by `change`. -/
@[simp] theorem Switch.read_pos {α : Type} [DecidableEq α] (w : Switch α) (x : α) : (w.read x).pos = w.pos := by
  simp only [Switch.read]; split
  · rfl
  · split <;> rfl

/-- What `stepWhen` answers. -/
theorem stepWhen_next (d : Bool) (f : State → State) (s : State) :
    stepWhen d f s = .next (if d then f s else s) := rfl

/-- A step that is due. -/
theorem stepWhen_due {d : Bool} (f : State → State) (s : State) (h : d = true) : stepWhen d f s = .next (f s) := by
  simp [stepWhen, h]

/-- A step that is not due changes nothing. -/
theorem stepWhen_not {d : Bool} (f : State → State) (s : State) (h : d = false) : stepWhen d f s = .next s := by
  simp [stepWhen, h]

end Sys2Proof.Machine
end

