-- ==== Sys2Proof/Laws/Store.lean ====
section
/-! SUPPORT. The Message Store's operations: what each leaves of the directory, and that each keeps the store sound. -/

namespace Sys2Proof.Machine

open Sys2Proof.Safety

/-! ### The directory -/

theorem Store.entry_eq (st : Store) (i : Nat) : st.entry i = (st.slots[i]?).join := by
  unfold Store.entry
  rw [List.getD_eq_getElem?_getD]
  cases st.slots[i]? <;> rfl

/-- An entry that is present stands in a slot. -/
theorem Store.entry_some {st : Store} {i : Nat} {e : DirEntry} (h : st.entry i = some e) :
    st.slots[i]? = some (some e) := by
  rw [Store.entry_eq] at h
  cases k : st.slots[i]? with
  | none => simp [k] at h
  | some o => simp [k] at h; simp [h]

theorem Store.entry_lt {st : Store} {i : Nat} {e : DirEntry} (h : st.entry i = some e) : i < st.slots.length :=
  (List.getElem?_eq_some_iff.1 (Store.entry_some h)).1

/-- A change of one entry, read back. -/
theorem Store.modify_entry (st : Store) (i j : Nat) (f : DirEntry → DirEntry) :
    (st.modify i f).entry j = if i = j then (st.entry j).map f else st.entry j := by
  rw [Store.entry_eq, Store.entry_eq]
  simp only [Store.modify, List.getElem?_modify]
  split
  · cases st.slots[j]? with
    | none => rfl
    | some o => cases o <;> rfl
  · cases st.slots[j]? <;> rfl

/-- A change of every entry that is picked, read back. -/
theorem Store.mapWhere_entry (st : Store) (p : DirEntry → Bool) (f : DirEntry → DirEntry) (j : Nat) :
    (st.mapWhere p f).entry j = (st.entry j).map fun e => if p e then f e else e := by
  rw [Store.entry_eq, Store.entry_eq]
  simp only [Store.mapWhere, List.getElem?_map]
  cases st.slots[j]? with
  | none => rfl
  | some o => cases o <;> rfl

/-- One slot filled, read back. -/
theorem Store.set_entry (st : Store) (slots : List (Option DirEntry)) (i j : Nat) (o : Option DirEntry)
    (h : st.slots = slots.set i o) :
    st.entry j = if i = j then (if i < slots.length then o else none) else (slots[j]?).join := by
  rw [Store.entry_eq, h, List.getElem?_set]
  split
  · split <;> rfl
  · rfl

/-! ### Blocks -/

theorem insertBlock_perm (b : Nat) (l : List Nat) : (insertBlock b l).Perm (b :: l) := by
  induction l with
  | nil => exact .refl _
  | cons x xs ih =>
    unfold insertBlock
    split
    · exact .refl _
    · exact ((ih.cons x).trans (.swap b x xs))

theorem insertBlock_rising (b : Nat) (l : List Nat) (h : l.Pairwise (· < ·)) (d : b ∉ l) :
    (insertBlock b l).Pairwise (· < ·) := by
  induction l with
  | nil => simp [insertBlock]
  | cons x xs ih =>
    have h' := List.pairwise_cons.1 h
    unfold insertBlock
    split
    · rename_i hb
      refine List.pairwise_cons.2 ⟨?_, h⟩
      intro y hy
      rcases List.mem_cons.1 hy with rfl | hy
      · exact hb
      · exact Nat.lt_trans hb (h'.1 y hy)
    · rename_i hb
      refine List.pairwise_cons.2 ⟨?_, ih h'.2 (fun hm => d (List.mem_cons_of_mem _ hm))⟩
      intro y hy
      rcases List.mem_cons.1 ((insertBlock_perm b xs).mem_iff.1 hy) with rfl | hy
      · have : y ≠ x := fun e => d (e ▸ List.mem_cons_self ..)
        omega
      · exact h'.1 y hy

theorem insertBlocks_perm (bs l : List Nat) : (bs.foldr insertBlock l).Perm (bs ++ l) := by
  induction bs with
  | nil => exact .refl _
  | cons b bs ih => exact (insertBlock_perm b _).trans (ih.cons b)

theorem insertBlocks_rising (bs l : List Nat) (h : l.Pairwise (· < ·)) (d : (bs ++ l).Nodup) :
    (bs.foldr insertBlock l).Pairwise (· < ·) := by
  induction bs with
  | nil => exact h
  | cons b bs ih =>
    have d' := List.nodup_cons.1 d
    exact insertBlock_rising b _ (ih d'.2) fun hm => d'.1 ((insertBlocks_perm bs l).mem_iff.1 hm)

/-- Blocks that are freed join the free set; the rest of the store stands. -/
theorem Store.freeBlocks_free (st : Store) (bs : List Nat) : (st.freeBlocks bs).free.Perm (bs ++ st.free) :=
  insertBlocks_perm bs st.free

/-- The blocks of the directory when one slot changes. -/
theorem flatMap_set_perm {α β : Type} (F : α → List β) (l : List α) (i : Nat) (x : α) (h : i < l.length) :
    (F l[i] ++ (l.set i x).flatMap F).Perm (F x ++ l.flatMap F) := by
  induction l generalizing i with
  | nil => simp at h
  | cons a l ih =>
    cases i with
    | zero =>
      simp only [List.getElem_cons_zero, List.set_cons_zero, List.flatMap_cons, ← List.append_assoc]
      exact List.perm_append_comm.append_right _
    | succ i =>
      simp only [List.getElem_cons_succ, List.set_cons_succ, List.flatMap_cons]
      have hi : i < l.length := by simpa using h
      have k := ih i hi
      have e1 : (F l[i] ++ (F a ++ (l.set i x).flatMap F)).Perm (F a ++ (F l[i] ++ (l.set i x).flatMap F)) := by
        simp only [← List.append_assoc]; exact List.perm_append_comm.append_right _
      have e2 : (F a ++ (F x ++ l.flatMap F)).Perm (F x ++ (F a ++ l.flatMap F)) := by
        simp only [← List.append_assoc]; exact List.perm_append_comm.append_right _
      exact e1.trans ((k.append_left _).trans e2)

theorem flatMap_modify {α β : Type} (F : α → List β) (l : List α) (i : Nat) (g : α → α) (h : ∀ a, F (g a) = F a) :
    (l.modify i g).flatMap F = l.flatMap F := by
  induction l generalizing i with
  | nil => cases i <;> rfl
  | cons a l ih =>
    cases i with
    | zero => simp [h]
    | succ i => simp [ih]

/-! ### Soundness -/

/-- A store that differs in neither cells, blocks, order nor what matters of the entries is as sound. -/
theorem storeSound_change {st t : Store} (h : StoreSound st) (f : Nat → DirEntry → DirEntry)
    (hc : Memory.wf t.cells = true) (hs : t.slots.length = 32) (ho : t.order = st.order) (hf : t.free = st.free)
    (hh : t.high = st.high) (he : ∀ i, t.entry i = (st.entry i).map (f i))
    (hk : ∀ i e, st.entry i = some e → (f i e).chain = e.chain ∧ (f i e).len ≤ 256 * e.chain.length)
    (hb : t.slots.flatMap (fun o => o.elim [] DirEntry.chain) = st.slots.flatMap fun o => o.elim [] DirEntry.chain) :
    StoreSound t where
  canonical := hc
  slots := hs
  orderNodup := ho ▸ h.orderNodup
  orderPresent i := by rw [ho, h.orderPresent, he]; cases st.entry i <;> rfl
  blocks := by rw [hf, hb]; exact h.blocks
  freeRising := hf ▸ h.freeRising
  chains i e k := by
    rw [he] at k
    cases q : st.entry i with
    | none => simp [q] at k
    | some e' =>
      simp only [q, Option.map_some, Option.some.injEq] at k
      have := hk i e' q
      have c := h.chains i e' q
      rw [← k, this.1]
      exact ⟨c.1, this.2⟩
  high := by rw [hh, hf]; exact h.high

/-- A change of one entry that keeps its chain and its length. -/
theorem Store.modify_sound {st : Store} (h : StoreSound st) (i : Nat) (f : DirEntry → DirEntry)
    (hf : ∀ e, (f e).chain = e.chain ∧ (f e).len = e.len) : StoreSound (st.modify i f) := by
  refine storeSound_change h (fun j e => if i = j then f e else e) h.canonical (by simp [Store.modify, h.slots]) rfl rfl rfl ?_ ?_ ?_
  · intro j
    rw [Store.modify_entry]
    split
    · simp
    · simp
  · intro j e k
    have c := (h.chains j e k).2
    split
    · rw [(hf e).1, (hf e).2]; exact ⟨rfl, c⟩
    · exact ⟨rfl, c⟩
  · exact flatMap_modify _ _ _ _ fun o => by cases o <;> simp [(hf _).1]

/-- A change of the entries picked that keeps their chains and lengths. -/
theorem Store.mapWhere_sound {st : Store} (h : StoreSound st) (p : DirEntry → Bool) (f : DirEntry → DirEntry)
    (hf : ∀ e, (f e).chain = e.chain ∧ (f e).len = e.len) : StoreSound (st.mapWhere p f) := by
  refine storeSound_change h (fun _ e => if p e then f e else e) h.canonical (by simp [Store.mapWhere, h.slots]) rfl rfl rfl
    (Store.mapWhere_entry st p f) ?_ ?_
  · intro j e k
    have c := (h.chains j e k).2
    split
    · rw [(hf e).1, (hf e).2]; exact ⟨rfl, c⟩
    · exact ⟨rfl, c⟩
  · simp only [Store.mapWhere, List.flatMap_map]
    congr 1
    funext o
    cases o with
    | none => rfl
    | some e =>
      simp only [Option.map_some, Option.elim_some]
      split
      · exact (hf e).1
      · rfl

/-- The latches play no part in soundness. -/
theorem storeSound_latches {st : Store} (h : StoreSound st) (a b : Bool) (n : Option Nat) :
    StoreSound { st with fault := a, hold := b, note := n } :=
  ⟨h.canonical, h.slots, h.orderNodup, h.orderPresent, h.blocks, h.freeRising, h.chains, h.high⟩

theorem storeSound_nodup {st : Store} (h : StoreSound st) :
    (st.free ++ st.slots.flatMap fun o => o.elim [] DirEntry.chain).Nodup := by
  rw [h.blocks.nodup_iff]; exact List.nodup_range

/-! ### Removal (R146) -/

theorem Store.remove_none {st : Store} {i : Nat} (h : st.entry i = none) : st.remove i = st := by
  unfold Store.remove; rw [h]

/-- The slot is empty afterwards, and every other entry stands. -/
theorem Store.remove_entry (st : Store) (i j : Nat) :
    (st.remove i).entry j = if i = j then none else st.entry j := by
  unfold Store.remove
  cases h : st.entry i with
  | none => dsimp only; split <;> simp_all
  | some e =>
    dsimp only
    rw [Store.set_entry (h := rfl), Store.entry_eq]
    split <;> simp

theorem Store.remove_cells (st : Store) (i : Nat) : (st.remove i).cells = st.cells := by
  unfold Store.remove; cases st.entry i <;> rfl

theorem Store.remove_slots_length (st : Store) (i : Nat) : (st.remove i).slots.length = st.slots.length := by
  unfold Store.remove; cases st.entry i <;> simp [Store.freeBlocks]

theorem Store.remove_latches (st : Store) (i : Nat) :
    (st.remove i).fault = st.fault ∧ (st.remove i).hold = st.hold ∧ (st.remove i).note = st.note := by
  unfold Store.remove; cases st.entry i <;> exact ⟨rfl, rfl, rfl⟩

/-- The entry's blocks join the free set. -/
theorem Store.remove_free {st : Store} {i : Nat} {e : DirEntry} (h : st.entry i = some e) :
    (st.remove i).free.Perm (e.chain ++ st.free) := by
  unfold Store.remove; rw [h]; exact Store.freeBlocks_free _ _

theorem Store.remove_order (st : Store) (i : Nat) (h : StoreSound st) :
    (st.remove i).order = st.order.filter (· != i) := by
  unfold Store.remove
  cases k : st.entry i with
  | some e => rfl
  | none =>
    dsimp only
    symm
    rw [List.filter_eq_self]
    intro a ha
    have := (h.orderPresent a).1 ha
    simp only [bne_iff_ne, ne_eq]
    rintro rfl
    simp [k] at this

theorem Store.remove_sound {st : Store} (h : StoreSound st) (i : Nat) : StoreSound (st.remove i) := by
  cases k : st.entry i with
  | none => rw [Store.remove_none k]; exact h
  | some e =>
    have hs := Store.entry_some k
    have hlt := Store.entry_lt k
    have hg : st.slots[i] = some e := by
      have := List.getElem?_eq_getElem hlt; rw [hs] at this; exact (Option.some.inj this).symm
    have hp := flatMap_set_perm (fun o : Option DirEntry => o.elim [] DirEntry.chain) st.slots i none hlt
    rw [hg] at hp
    simp only [Option.elim_some, Option.elim_none, List.nil_append] at hp
    have hb : ((st.remove i).free ++ (st.remove i).slots.flatMap fun o => o.elim [] DirEntry.chain).Perm
        (st.free ++ st.slots.flatMap fun o => o.elim [] DirEntry.chain) := by
      refine ((Store.remove_free k).append_right _).trans ?_
      have hsl : (st.remove i).slots = st.slots.set i none := by unfold Store.remove; rw [k]; rfl
      rw [hsl, List.append_assoc]
      refine List.perm_append_comm.trans ?_
      rw [List.append_assoc]
      refine (List.Perm.append_left _ (List.perm_append_comm.trans hp)).trans (.refl _)
    refine ⟨?_, ?_, ?_, ?_, hb.trans h.blocks, ?_, ?_, ?_⟩
    · rw [Store.remove_cells]; exact h.canonical
    · rw [Store.remove_slots_length]; exact h.slots
    · rw [Store.remove_order _ _ h]; exact h.orderNodup.filter _
    · intro j
      rw [Store.remove_order _ _ h, Store.remove_entry, List.mem_filter]
      by_cases hj : i = j
      · simp [hj]
      · have hj' : j ≠ i := fun q => hj q.symm
        simp [hj, hj', h.orderPresent]
    · have nd : (e.chain ++ st.free).Nodup := by
        have n2 := storeSound_nodup h
        have pm : (st.free ++ st.slots.flatMap fun o => o.elim [] DirEntry.chain).Perm
            ((e.chain ++ st.free) ++ (st.slots.set i none).flatMap fun o => o.elim [] DirEntry.chain) := by
          refine (List.Perm.append_left _ hp.symm).trans ?_
          simp only [← List.append_assoc]
          exact List.perm_append_comm.append_right _
        exact (List.nodup_append.1 (pm.nodup_iff.1 n2)).1
      have : (st.remove i).free = e.chain.foldr insertBlock st.free := by unfold Store.remove; rw [k]; rfl
      rw [this]
      exact insertBlocks_rising _ _ h.freeRising nd
    · intro j f hj
      rw [Store.remove_entry] at hj
      split at hj
      · cases hj
      · exact h.chains j f hj
    · have hf : (st.remove i).free = e.chain.foldr insertBlock st.free := by unfold Store.remove; rw [k]; rfl
      have hl : (st.remove i).free.length = e.chain.length + st.free.length := by
        rw [(Store.remove_free k).length_eq, List.length_append]
      have hh : (st.remove i).high = (st.high && decide ((st.remove i).free.length ≤ 16)) := by
        rw [hf]; unfold Store.remove; rw [k]; rfl
      rw [hh, h.high, Bool.and_comm]
      by_cases q : (st.remove i).free.length ≤ 16
      · have : st.free.length ≤ 16 := by omega
        simp [q, this]
      · simp [q]

/-! ### Reclaim (R134, R135) -/

/-- An entry that can be reclaimed is CLOSED, PRINTED, RECEIVED and not KEPT, and it stands in the order. -/
theorem Store.reclaimIndex_some {st : Store} {i : Nat} (h : st.reclaimIndex = some i) :
    i ∈ st.order ∧ ∃ e, st.entry i = some e ∧ e.reclaimable = true := by
  have m := List.mem_of_find?_eq_some h
  have p := List.find?_some h
  rw [Option.any_eq_true] at p
  exact ⟨m, p⟩

/-- What a run of reclaims leaves: each slot as it was, or emptied of an entry that could be reclaimed. -/
structure Reclaimed (st t : Store) : Prop where
  cells : t.cells = st.cells
  latches : t.fault = st.fault ∧ t.hold = st.hold ∧ t.note = st.note
  slots : t.slots.length = st.slots.length
  entries : ∀ j, t.entry j = st.entry j ∨ (t.entry j = none ∧ ∃ e, st.entry j = some e ∧ e.reclaimable = true)
  sound : StoreSound st → StoreSound t

theorem Reclaimed.refl (st : Store) : Reclaimed st st := ⟨rfl, ⟨rfl, rfl, rfl⟩, rfl, fun _ => Or.inl rfl, id⟩

theorem Reclaimed.trans {st t u : Store} (h : Reclaimed st t) (k : Reclaimed t u) : Reclaimed st u where
  cells := k.cells.trans h.cells
  latches := ⟨k.latches.1.trans h.latches.1, k.latches.2.1.trans h.latches.2.1, k.latches.2.2.trans h.latches.2.2⟩
  slots := k.slots.trans h.slots
  entries j := by
    rcases k.entries j with a | ⟨a, e, b, c⟩
    · rw [a]; exact h.entries j
    · rcases h.entries j with d | ⟨d, _⟩
      · exact Or.inr ⟨a, e, d ▸ b, c⟩
      · rw [d] at b; cases b
  sound := k.sound ∘ h.sound

theorem Store.reclaimUntil_reclaimed (ok : Store → Bool) (n : Nat) (st : Store) :
    Reclaimed st (Store.reclaimUntil ok n st) := by
  induction n generalizing st with
  | zero => exact .refl st
  | succ n ih =>
    unfold Store.reclaimUntil
    split
    · exact .refl st
    · split
      · exact .refl st
      · rename_i i h
        obtain ⟨_, e, he, hr⟩ := Store.reclaimIndex_some h
        refine Reclaimed.trans ?_ (ih _)
        refine ⟨Store.remove_cells _ _, Store.remove_latches _ _, Store.remove_slots_length _ _, ?_,
          fun s => Store.remove_sound s i⟩
        intro j
        rw [Store.remove_entry]
        split
        · rename_i q; subst q; exact Or.inr ⟨rfl, e, he, hr⟩
        · exact Or.inl rfl

/-- Nothing is reclaimed where nothing is wanting. -/
theorem Store.reclaimUntil_ok (ok : Store → Bool) (n : Nat) (st : Store) (h : ok st = true) :
    Store.reclaimUntil ok n st = st := by
  cases n with
  | zero => rfl
  | succ n => unfold Store.reclaimUntil; rw [if_pos h]

/-! ### Allocation and growth (R129, R130, R136) -/

theorem Store.alloc_some {st u : Store} {b : Nat} (h : st.alloc = some (b, u)) :
    ∃ rest, st.free = b :: rest ∧
      u = { st with free := rest, high := st.high || decide (rest.length = 16) } := by
  unfold Store.alloc at h
  split at h
  · cases h
  · rename_i b' rest q
    simp only [Option.some.injEq, Prod.mk.injEq] at h
    obtain ⟨rfl, rfl⟩ := h
    exact ⟨rest, q, rfl⟩

theorem Store.alloc_none {st : Store} : st.alloc = none ↔ st.free = [] := by
  unfold Store.alloc
  split
  · rename_i h; simp [h]
  · rename_i h; simp [h]

/-- An entry put into a slot, with chain `c`, length `n` and blocks that were free or its own. -/
theorem Store.put_sound {st t : Store} (h : StoreSound st) (i : Nat) (o : Option DirEntry) (f : DirEntry)
    (hi : st.slots[i]? = some o) (hc : Memory.wf t.cells = true) (hsl : t.slots = st.slots.set i (some f))
    (hord : t.order = if o.isSome then st.order else st.order ++ [i])
    (hfr : t.free.Pairwise (· < ·)) (hhi : t.high = decide (t.free.length ≤ 16))
    (hbl : (t.free ++ f.chain).Perm (st.free ++ o.elim [] DirEntry.chain))
    (hch : 1 ≤ f.chain.length ∧ f.len ≤ 256 * f.chain.length) : StoreSound t := by
  have hlt : i < st.slots.length := (List.getElem?_eq_some_iff.1 hi).1
  have hg : st.slots[i] = o := by
    have := List.getElem?_eq_getElem hlt; rw [hi] at this; exact (Option.some.inj this).symm
  have ho : st.entry i = o := by rw [Store.entry_eq, hi]; cases o <;> rfl
  have hent : ∀ j, t.entry j = if i = j then some f else st.entry j := by
    intro j
    rw [Store.set_entry t st.slots i j (some f) hsl, Store.entry_eq]
    split
    · rfl
    · rfl
  have hp := flatMap_set_perm (fun o : Option DirEntry => o.elim [] DirEntry.chain) st.slots i (some f) hlt
  rw [hg] at hp
  simp only [Option.elim_some] at hp
  refine ⟨hc, by rw [hsl, List.length_set]; exact h.slots, ?_, ?_, ?_, hfr, ?_, hhi⟩
  · rw [hord]
    split
    · exact h.orderNodup
    · rename_i q
      refine List.nodup_append.2 ⟨h.orderNodup, by simp, ?_⟩
      intro a ha b hb
      simp only [List.mem_singleton] at hb
      subst hb
      rintro rfl
      have := (h.orderPresent a).1 ha
      rw [ho] at this
      exact q this
  · intro j
    rw [hent, hord]
    by_cases hj : i = j
    · subst hj
      split
      · rename_i q; simp [h.orderPresent, ho, q]
      · simp
    · have hj' : j ≠ i := fun q => hj q.symm
      split <;> simp [hj', h.orderPresent]
  · rw [hsl]
    refine List.Perm.trans ?_ h.blocks
    -- add the old chain on both sides
    have a1 : (o.elim [] DirEntry.chain ++ (t.free ++ (st.slots.set i (some f)).flatMap fun o => o.elim [] DirEntry.chain)).Perm
        (t.free ++ (f.chain ++ st.slots.flatMap fun o => o.elim [] DirEntry.chain)) := by
      refine List.Perm.trans ?_ (List.Perm.append_left _ hp)
      simp only [← List.append_assoc]
      exact List.perm_append_comm.append_right _
    have a2 : (t.free ++ (f.chain ++ st.slots.flatMap fun o => o.elim [] DirEntry.chain)).Perm
        (o.elim [] DirEntry.chain ++ (st.free ++ st.slots.flatMap fun o => o.elim [] DirEntry.chain)) := by
      rw [← List.append_assoc]
      refine (hbl.append_right _).trans ?_
      simp only [← List.append_assoc]
      exact List.perm_append_comm.append_right _
    exact (List.perm_append_left_iff _).1 (a1.trans a2)
  · intro j e hj
    rw [hent] at hj
    split at hj
    · cases hj; exact hch
    · exact h.chains j e hj

theorem high_alloc {st : Store} (h : StoreSound st) {b : Nat} {rest : List Nat} (q : st.free = b :: rest) :
    (st.high || decide (rest.length = 16)) = decide (rest.length ≤ 16) := by
  rw [h.high, q, List.length_cons]
  by_cases a : rest.length ≤ 15
  · have : rest.length + 1 ≤ 16 := by omega
    simp [this, show rest.length ≤ 16 by omega]
  · by_cases c : rest.length = 16
    · simp [c]
    · have : ¬ rest.length + 1 ≤ 16 := by omega
      simp [this, c, show ¬ rest.length ≤ 16 by omega]

/-- R136: what the writing of a cell answers, and what it leaves. -/
theorem Store.writeCell_sound {st : Store} (h : StoreSound st) (i : Nat) (c : Code) (err : Bool) :
    StoreSound (st.writeCell i c err).1 := by
  unfold Store.writeCell
  split
  · exact h
  · rename_i e he
    split
    · exact h
    · rename_i hst
      split
      · rename_i hl
        refine Store.put_sound h i (some e) { e with len := e.len + 1, chain := e.chain } (Store.entry_some he)
          (Memory.write_wf _ _ _ h.canonical) rfl rfl h.freeRising h.high (.refl _) ?_
        have := h.chains i e he
        simp only [Config.blockCells] at hl
        exact ⟨this.1, by dsimp only; omega⟩
      · split
        · exact h
        · have r := Store.reclaimUntil_reclaimed Store.blockFree Config.slots st
          have hs := r.sound h
          dsimp only
          split
          · exact hs
          · rename_i b u hu
            obtain ⟨rest, hf, rfl⟩ := Store.alloc_some hu
            have hne : e.reclaimable = false := by
              have : e.state = .opened := by simpa using hst
              simp [DirEntry.reclaimable, this]
            have he2 : (Store.reclaimUntil Store.blockFree Config.slots st).entry i = some e := by
              rcases r.entries i with q | ⟨_, e2, q, q2⟩
              · rw [q]; exact he
              · rw [he] at q; cases q; rw [hne] at q2; cases q2
            have hri := hs.freeRising
            rw [hf] at hri
            refine Store.put_sound hs i (some e) { e with len := e.len + 1, chain := e.chain ++ [b] }
              (Store.entry_some he2) (Memory.write_wf _ _ _ hs.canonical) rfl rfl (List.pairwise_cons.1 hri).2
              (high_alloc hs hf) ?_ ?_
            · simp only [Store.append, Option.elim_some]
              rw [hf]
              have : (rest ++ (e.chain ++ [b])).Perm (b :: (rest ++ e.chain)) := by
                rw [← List.append_assoc]; exact List.perm_append_singleton _ _
              exact this
            · have := hs.chains i e he2
              simp only [List.length_append, List.length_singleton]
              omega

/-- R134: a creation keeps the store sound. -/
theorem Store.create_sound {st : Store} (h : StoreSound st) (r : CreateReq) : StoreSound (st.create r).1 := by
  have rc := Store.reclaimUntil_reclaimed (fun t => t.slotFree && t.blockFree) Config.slots st
  have hs := rc.sound h
  unfold Store.create
  dsimp only
  split
  · rename_i i b t hi ha
    obtain ⟨rest, hf, rfl⟩ := Store.alloc_some ha
    rw [List.findIdx?_eq_some_iff_getElem] at hi
    obtain ⟨hlt, hn, _⟩ := hi
    have hri := hs.freeRising
    rw [hf] at hri
    refine Store.put_sound hs i none (r.entry _ b) ?_ hs.canonical rfl rfl (List.pairwise_cons.1 hri).2
      (high_alloc hs hf) ?_ ⟨by simp [CreateReq.entry], by simp [CreateReq.entry]⟩
    · rw [List.getElem?_eq_getElem hlt]
      simp only [Option.isNone_iff_eq_none] at hn
      rw [hn]
    · simp only [CreateReq.entry, Option.elim_none, List.append_nil]
      rw [hf]
      exact List.perm_append_singleton _ _
  · exact hs

/-! ### What a creation answers (R134, R151) -/

/-- With a slot and a block free the first empty slot takes the entry, on the lowest free block. -/
theorem Store.create_free (st : Store) (r : CreateReq) {n : Nat} (hs : st.slots[n]? = some none) (hb : st.free ≠ []) :
    ∃ i b rest, st.free = b :: rest ∧ st.slots[i]? = some none ∧
      st.create r =
        ({ st with
            free := rest, high := st.high || decide (rest.length = 16)
            slots := st.slots.set i (some (r.entry st.note b)), order := st.order ++ [i] }, some i) := by
  have sf : st.slotFree = true := by
    unfold Store.slotFree
    rw [List.any_eq_true]
    exact ⟨none, List.mem_of_getElem? hs, rfl⟩
  have bf : st.blockFree = true := by
    unfold Store.blockFree
    cases h : st.free with
    | nil => exact absurd h hb
    | cons _ _ => rfl
  unfold Store.create
  rw [Store.reclaimUntil_ok _ _ _ (by rw [sf, bf]; rfl)]
  cases hf : st.free with
  | nil => exact absurd hf hb
  | cons b rest =>
    have ha : st.alloc = some (b, { st with free := rest, high := st.high || decide (rest.length = 16) }) := by
      unfold Store.alloc; rw [hf]
    cases hi : st.slots.findIdx? Option.isNone with
    | none =>
      rw [List.findIdx?_eq_none_iff] at hi
      have := hi none (List.mem_of_getElem? hs)
      simp at this
    | some i =>
      have hi' := hi
      rw [List.findIdx?_eq_some_iff_getElem] at hi'
      obtain ⟨hlt, hn, _⟩ := hi'
      refine ⟨i, b, rest, rfl, ?_, ?_⟩
      · rw [List.getElem?_eq_getElem hlt]
        simp only [Option.isNone_iff_eq_none] at hn
        rw [hn]
      · dsimp only; rw [ha, hi]

/-- Where the store would not create an entry, it creates none and reclaims nothing. -/
theorem Store.create_cannot (st : Store) (r : CreateReq) (h : st.canCreate = false) : st.create r = (st, none) := by
  have hr : st.reclaimIndex = none := by
    cases q : st.reclaimIndex with
    | none => rfl
    | some i => simp [Store.canCreate, q] at h
  have hn : (st.slotFree && st.blockFree) = false := by
    simp only [Store.canCreate, hr, Option.isSome_none, Bool.or_false] at h
    exact h
  have e : Store.reclaimUntil (fun t => t.slotFree && t.blockFree) Config.slots st = st := by
    unfold Config.slots Store.reclaimUntil
    rw [hn, hr]
    rfl
  unfold Store.create
  rw [e]
  dsimp only
  split
  · rename_i i b t hi ha
    obtain ⟨rest, hf, rfl⟩ := Store.alloc_some ha
    rw [List.findIdx?_eq_some_iff_getElem] at hi
    obtain ⟨hlt, hn', _⟩ := hi
    have sf : st.slotFree = true := by
      unfold Store.slotFree; rw [List.any_eq_true]; exact ⟨_, List.getElem_mem hlt, hn'⟩
    have bf : st.blockFree = true := by unfold Store.blockFree; rw [hf]; rfl
    rw [sf, bf] at hn
    cases hn
  · rfl

/-- A sound store that would create an entry creates one. -/
theorem Store.create_can {st : Store} (hs : StoreSound st) (r : CreateReq) (h : st.canCreate = true) :
    ∃ t i b rest, Reclaimed st t ∧ t.free = b :: rest ∧ t.slots[i]? = some none ∧
      st.create r =
        ({ t with
            free := rest, high := t.high || decide (rest.length = 16)
            slots := t.slots.set i (some (r.entry t.note b)), order := t.order ++ [i] }, some i) := by
  have key : ∃ t, Reclaimed st t ∧ Store.reclaimUntil (fun t => t.slotFree && t.blockFree) Config.slots st = t ∧
      (t.slotFree && t.blockFree) = true := by
    by_cases q : (st.slotFree && st.blockFree) = true
    · exact ⟨st, .refl st, Store.reclaimUntil_ok _ _ _ q, q⟩
    · cases hr : st.reclaimIndex with
      | none => simp [Store.canCreate, hr] at h; simp [h] at q
      | some i =>
        obtain ⟨hm, e, he, hre⟩ := Store.reclaimIndex_some hr
        have ok : ((st.remove i).slotFree && (st.remove i).blockFree) = true := by
          have sf : (st.remove i).slotFree = true := by
            unfold Store.slotFree
            rw [List.any_eq_true]
            have : (st.remove i).slots = st.slots.set i none := by unfold Store.remove; rw [he]; rfl
            refine ⟨none, ?_, rfl⟩
            rw [this]
            exact List.mem_of_getElem? (List.getElem?_set_self (Store.entry_lt he))
          have bf : (st.remove i).blockFree = true := by
            unfold Store.blockFree
            have l := (Store.remove_free he).length_eq
            have c := (hs.chains i e he).1
            rw [List.length_append] at l
            cases hf : (st.remove i).free with
            | nil => rw [hf] at l; simp at l; omega
            | cons _ _ => rfl
          rw [sf, bf]; rfl
        refine ⟨st.remove i, ?_, ?_, ok⟩
        · refine ⟨Store.remove_cells _ _, Store.remove_latches _ _, Store.remove_slots_length _ _, ?_,
            fun s => Store.remove_sound s i⟩
          intro j
          rw [Store.remove_entry]
          split
          · rename_i w; subst w; exact Or.inr ⟨rfl, e, he, hre⟩
          · exact Or.inl rfl
        · show Store.reclaimUntil _ 32 st = _
          unfold Store.reclaimUntil
          rw [if_neg q, hr]
          exact Store.reclaimUntil_ok _ _ _ ok
  obtain ⟨t, rt, et, ok⟩ := key
  have ok' := ok
  rw [Bool.and_eq_true] at ok'
  have sf := ok'.1
  unfold Store.slotFree at sf
  rw [List.any_eq_true] at sf
  obtain ⟨o, ho, hn⟩ := sf
  obtain ⟨n, hlt, hg⟩ := List.getElem_of_mem ho
  have hnone : t.slots[n]? = some none := by
    rw [List.getElem?_eq_getElem hlt, hg]
    simp only [Option.isNone_iff_eq_none] at hn
    rw [hn]
  have hb : t.free ≠ [] := by
    have := ok'.2
    unfold Store.blockFree at this
    intro z
    rw [z] at this
    cases this
  obtain ⟨i, b, rest, hf, hi, hc⟩ := Store.create_free t r hnone hb
  refine ⟨t, i, b, rest, rt, hf, hi, ?_⟩
  rw [← hc]
  unfold Store.create
  rw [et, Store.reclaimUntil_ok _ _ _ ok]

/-! ### The other operations keep the store sound -/

theorem Store.readCell_sound {st : Store} (h : StoreSound st) (i off : Nat) : StoreSound (st.readCell i off).1 := by
  unfold Store.readCell
  split
  · exact h
  · dsimp only
    split
    · have m := Store.modify_sound h i (fun e => { e with damaged := true }) fun _ => ⟨rfl, rfl⟩
      exact storeSound_latches m true _ _
    · exact h

theorem Store.closeCall_sound {st : Store} (h : StoreSound st) (n : Nat) (o : CallOutcome) :
    StoreSound (st.closeCall n o) := Store.mapWhere_sound h _ _ fun _ => ⟨rfl, rfl⟩

theorem Store.closeEntry_sound {st : Store} (h : StoreSound st) (i : Nat) (o : CallOutcome) :
    StoreSound (st.closeEntry i o) := by
  refine Store.modify_sound h _ _ fun e => ?_
  split <;> exact ⟨rfl, rfl⟩

theorem Store.markDoubtful_sound {st : Store} (h : StoreSound st) (n : Nat) : StoreSound (st.markDoubtful n) :=
  Store.mapWhere_sound h _ _ fun _ => ⟨rfl, rfl⟩

theorem Store.keepCall_sound {st : Store} (h : StoreSound st) (n : Nat) : StoreSound (st.keepCall n) :=
  storeSound_latches
    (Store.mapWhere_sound h (fun e => e.kind = .received && e.serial = n) (fun e => { e with kept := true })
      fun _ => ⟨rfl, rfl⟩) _ _ _

theorem Store.printed_sound {st : Store} (h : StoreSound st) (k : Bool) (i : Nat) : StoreSound (st.printed k i) := by
  unfold Store.printed
  split
  · exact h
  · split
    · exact Store.modify_sound h _ _ fun _ => ⟨rfl, rfl⟩
    · exact Store.remove_sound h i

theorem Store.finishPrepared_sound {st : Store} (h : StoreSound st) (i : Nat) : StoreSound (st.finishPrepared i) := by
  refine Store.modify_sound h _ _ fun e => ?_
  split <;> exact ⟨rfl, rfl⟩

theorem Store.takeOutbound_sound {st : Store} (h : StoreSound st) (i : Nat) : StoreSound (st.takeOutbound i) :=
  Store.modify_sound h _ _ fun _ => ⟨rfl, rfl⟩

theorem Store.returnOutbound_sound {st : Store} (h : StoreSound st) (i : Nat) : StoreSound (st.returnOutbound i) := by
  refine Store.modify_sound h _ _ fun e => ?_
  split <;> exact ⟨rfl, rfl⟩

theorem Store.setSending_sound {st : Store} (h : StoreSound st) (i : Nat) (n : Option Nat) :
    StoreSound (st.setSending i n) := Store.modify_sound h _ _ fun _ => by split <;> exact ⟨rfl, rfl⟩

theorem Store.settle_sound {st : Store} (h : StoreSound st) (i : Nat) (o : CallOutcome) : StoreSound (st.settle i o) := by
  unfold Store.settle
  split
  · exact h
  · repeat' split
    · exact Store.modify_sound h _ _ fun _ => ⟨rfl, rfl⟩
    · exact Store.remove_sound h i
    · exact Store.modify_sound h _ _ fun _ => ⟨rfl, rfl⟩
    · exact Store.modify_sound h _ _ fun _ => ⟨rfl, rfl⟩

theorem Store.takeHeld_sound {st : Store} (h : StoreSound st) (i n : Nat) : StoreSound (st.takeHeld i n) :=
  Store.modify_sound h _ _ fun _ => ⟨rfl, rfl⟩

theorem Store.delivered_sound {st : Store} (h : StoreSound st) (i : Nat) (c : Bool) : StoreSound (st.delivered i c) := by
  unfold Store.delivered
  split
  · exact h
  · repeat' split
    · exact Store.modify_sound h _ _ fun _ => ⟨rfl, rfl⟩
    · exact Store.remove_sound h i
    · exact Store.modify_sound h _ _ fun _ => ⟨rfl, rfl⟩

theorem Store.tick_sound {st : Store} (h : StoreSound st) : StoreSound st.tick :=
  Store.mapWhere_sound h _ _ fun _ => ⟨rfl, rfl⟩

theorem Store.release_sound {st : Store} (h : StoreSound st) (k : Bool) (i : Nat) : StoreSound (st.release k i) := by
  unfold Store.release
  split
  · exact h
  · split
    · exact Store.remove_sound h i
    · exact Store.modify_sound h _ _ fun _ => ⟨rfl, rfl⟩

theorem Store.callEnd_sound {st : Store} (h : StoreSound st) (n : Nat) (o : CallOutcome) : StoreSound (st.callEnd n o) := by
  unfold Store.callEnd
  dsimp only
  split
  · exact storeSound_latches (Store.closeCall_sound h n o) _ _ _
  · exact Store.closeCall_sound h n o

theorem Store.readText_sound (i : Nat) : ∀ (n : Nat) (st : Store) (off : Nat), StoreSound st →
    StoreSound (st.readText i off n).1
  | 0, _, _, h => h
  | n + 1, _, off, h => Store.readText_sound i n _ (off + 1) (Store.readCell_sound h i off)

theorem Store.removeAll_sound (l : List Nat) : ∀ st : Store, StoreSound st → StoreSound (l.foldl Store.remove st) := by
  induction l with
  | nil => exact fun _ h => h
  | cons i l ih => exact fun st h => ih _ (Store.remove_sound h i)

theorem DirEntry.afterReset_chain (e : DirEntry) : e.afterReset.chain = e.chain ∧ e.afterReset.len = e.len := by
  unfold DirEntry.afterReset
  cases e.kind <;> dsimp only <;> repeat' split
  all_goals exact ⟨rfl, rfl⟩

theorem Store.afterReset_sound {st : Store} (h : StoreSound st) : StoreSound st.afterReset := by
  have t := Store.removeAll_sound (st.listOf DirEntry.discarded) st h
  have m := Store.mapWhere_sound t (fun _ => true) DirEntry.afterReset DirEntry.afterReset_chain
  have e : st.afterReset =
      { (((st.listOf DirEntry.discarded).foldl Store.remove st).mapWhere (fun _ => true) DirEntry.afterReset) with
        fault := false, hold := false, note := none } := by
    unfold Store.afterReset Store.mapWhere
    simp [t.high]
  rw [e]
  exact storeSound_latches m _ _ _

end Sys2Proof.Machine
end

