-- ==== Sys2Proof/Laws/Calls.lean ====
section
/-! SUPPORT. What an event that does not name the held call can do, and what the end of a call leaves. -/

namespace Sys2Proof.Machine

open Sys2Proof.Safety

/-! ### The end of a call request (R86) -/

/-- What R86 does to the keyboard, as the statements say it. -/
theorem Kbd.requestFailed_eq (k : Kbd) : k.requestFailed = requestEnded k := by
  have h : (k.queue.filter fun e => e.route != .line) = k.queue.filter fun e => decide (e.route ≠ .line) :=
    List.filter_congr fun e _ => by cases e.route <;> rfl
  unfold requestEnded Kbd.requestFailed Kbd.removeRoute Kbd.withQueue
  rcases k.setup with _ | r | ⟨r, _⟩ | _ | _ | _ <;> simp only [h, Setup.isLine, Config.unlockAt] <;>
    (try cases r) <;> rfl

/-- The second of the two reports of R86 does nothing where nothing has been typed since the first (log 64). -/
theorem Kbd.requestFailed_twice (k : Kbd) : k.requestFailed.requestFailed = k.requestFailed := by
  unfold Kbd.requestFailed Kbd.removeRoute Kbd.withQueue
  rcases hs : k.setup with _ | r | ⟨r, _⟩ | _ | _ | _ <;>
    simp [Setup.isLine, List.filter_filter] <;> cases r <;> simp

/-! ### Events that do not name the held call (R176, R178 to R180) -/

/-- The printer but for its motor and its ring request. -/
def Printer.still (p : Printer) : Printer :=
  { p with motor := .stopped, startCount := 0, runOn := 0, stopReq := false, atSpeed := false, runOut := false,
           stopMet := false, ring := false }

/-- Only the motor, the ring request, the hold on outbound entries, the lamps, the alarm and the model's own part of the
matrix can differ. -/
structure Stirred (s t : State) : Prop where
  frame : keeps [.printer, .store, .links] s t
  printer : t.printer.still = s.printer.still
  store : t.store = { s.store with hold := t.store.hold }
  links : t.links =
    { s.links with
      lampA := t.links.lampA, lampB := t.links.lampB, alarm := t.links.alarm, raised := t.links.raised
      choices := t.links.choices }

theorem Stirred.refl (s : State) : Stirred s s := ⟨keeps_refl _ s, rfl, rfl, rfl⟩

theorem Stirred.trans {s t u : State} (h : Stirred s t) (k : Stirred t u) : Stirred s u where
  frame := keeps_trans h.frame k.frame
  printer := k.printer.trans h.printer
  store := by rw [k.store, h.store]
  links := by rw [k.links, h.links]

theorem Stirred.tracker {s t : State} (h : Stirred s t) : t.tracker = s.tracker := h.frame .tracker (by decide)

theorem Printer.startMotor_still (p : Printer) : p.startMotor.still = p.still := rfl

theorem Printer.kick_still (p : Printer) : p.kick.still = p.still := by
  unfold Printer.kick
  split <;> rfl

theorem Printer.motorStart_still (p : Printer) : p.motorStart.still = p.still := by
  unfold Printer.motorStart
  split <;> rfl

theorem Printer.motorStop_still (p : Printer) : p.motorStop.still = p.still := by
  unfold Printer.motorStop
  split <;> rfl

theorem Printer.attempt_still (p : Printer) : p.attempt.still = p.still := by
  unfold Printer.attempt
  split
  · rfl
  · exact p.kick_still

theorem Printer.ringBell_still (p : Printer) : p.ringBell.still = p.still := by
  unfold Printer.ringBell
  exact Printer.attempt_still _

theorem State.setPrinter_stirred (s : State) (p : Printer) (h : p.still = s.printer.still) :
    Stirred s (s.setPrinter p) := ⟨keeps_mono (State.setPrinter_keeps s p) rfl, h, rfl, rfl⟩

/-- An action of an event that does not name the held call. -/
theorem State.doAction_stirred (s : State) (serial : Option Nat) (a : BitVec 4) (h : s.holdsCall serial = false) :
    Stirred s (s.doAction serial a) := by
  unfold State.doAction
  simp only [h, Bool.false_eq_true, if_false]
  split
  case h_3 => exact State.setPrinter_stirred s _ s.printer.motorStart_still
  case h_4 => exact State.setPrinter_stirred s _ s.printer.motorStop_still
  case h_12 => exact State.setPrinter_stirred s _ s.printer.ringBell_still
  all_goals
    first
    | exact Stirred.refl s
    | exact ⟨keeps_mono (State.setLinks_keeps s _) rfl, rfl, rfl, rfl⟩
    | exact ⟨keeps_mono (State.setStore_keeps s _) rfl, rfl, rfl, rfl⟩

/-- The taking of an event whose actions are not for the held call. -/
theorem State.takeEvent_stirred (s : State) (d : Unseen) (e : Event) (h : s.holdsCall e.call = false) : Stirred s (s.takeEvent d e) := by
  unfold State.takeEvent
  generalize s.linkActions d e.code = acts
  induction acts generalizing s with
  | nil => rw [List.foldl_nil, s.lateCode_other e h]; exact Stirred.refl s
  | cons a acts ih =>
    have k := State.doAction_stirred s e.call a h
    refine k.trans (ih _ ?_)
    unfold State.holdsCall
    rw [k.tracker]
    exact h

/-- With no call held no event names one. -/
theorem State.holdsCall_noCall (s : State) (n : Option Nat) (h : s.tracker.call = none) : s.holdsCall n = false := by
  unfold State.holdsCall
  rw [h]
  rfl

theorem State.raise_stirred (s : State) (ev : BitVec 4) (serial : Option Nat) : Stirred s (s.raise ev serial) :=
  ⟨keeps_mono (State.raise_keeps s ev serial) rfl, rfl, rfl, rfl⟩

theorem State.raiseNone_stirred (s : State) (ev : BitVec 4) : Stirred s (s.raise ev none) := s.raise_stirred ev none

theorem State.raiseHigh_stirred (s : State) (b : Bool) : Stirred s (s.raiseHigh b) := by
  unfold State.raiseHigh
  split
  · exact State.raiseNone_stirred s 13
  · exact Stirred.refl s

/-! ### Ends of jobs -/

/-- The Answering Unit but for the collection. -/
def Answer.bare (a : Answer) : Answer := { a with coll := none }

/-- What the end of a job leaves of the printer, the Answering Unit and the blocks it cannot reach. -/
structure JobEnded (s t : State) : Prop where
  frame : keeps jobBlocks s t
  printer : t.printer.still = s.printer.still
  answer : t.answer.bare = s.answer.bare
  cells : t.store.cells = s.store.cells

theorem JobEnded.refl (s : State) : JobEnded s s := ⟨keeps_refl _ s, rfl, rfl, rfl⟩

theorem JobEnded.trans {s t u : State} (h : JobEnded s t) (k : JobEnded t u) : JobEnded s u :=
  ⟨keeps_trans h.frame k.frame, k.printer.trans h.printer, k.answer.trans h.answer, k.cells.trans h.cells⟩

theorem Stirred.jobEnded {s t : State} (h : Stirred s t) : JobEnded s t where
  frame := keeps_mono h.frame rfl
  printer := h.printer
  answer := congrArg Answer.bare (h.frame .answer (by decide))
  cells := by rw [h.store]

theorem Store.settle_cells (st : Store) (i : Nat) (o : CallOutcome) : (st.settle i o).cells = st.cells := by
  unfold Store.settle
  repeat' first
    | rfl
    | exact Store.remove_cells _ _
    | split

theorem Store.delivered_cells (st : Store) (i : Nat) (b : Bool) : (st.delivered i b).cells = st.cells := by
  unfold Store.delivered
  repeat' first
    | rfl
    | exact Store.remove_cells _ _
    | split

theorem State.setStore_jobEnded (s : State) (st : Store) (h : st.cells = s.store.cells) : JobEnded s (s.setStore st) :=
  ⟨keeps_mono (State.setStore_keeps s st) rfl, rfl, rfl, h⟩

theorem State.settleEntry_jobEnded (s : State) (i : Nat) (o : CallOutcome) : JobEnded s (s.settleEntry i o) := by
  have h := State.setStore_jobEnded s _ (s.store.settle_cells i o)
  unfold State.settleEntry
  dsimp only
  split
  · exact h.trans (State.raiseNone_stirred _ 14).jobEnded
  · exact h

theorem State.endCollection_jobEnded (s : State) (c : Collection) : JobEnded s (s.endCollection c) := by
  have h : JobEnded s (s.setAnswer { s.answer with coll := none }) :=
    ⟨keeps_mono (State.setAnswer_keeps s _) rfl, rfl, rfl, rfl⟩
  unfold State.endCollection
  dsimp only
  split
  · exact h.trans (State.raiseNone_stirred _ 15).jobEnded
  · exact h

theorem State.deliverEnd_jobEnded (s : State) (r : JobResult) : JobEnded s (s.deliverEnd r) := by
  have h (c : Collection) (b : Bool) : JobEnded s (s.deliveryResult c b) := by
    unfold State.deliveryResult
    split
    · exact State.setStore_jobEnded s _ (s.store.delivered_cells _ _)
    · exact JobEnded.refl s
  unfold State.deliverEnd
  split
  · exact JobEnded.refl s
  · dsimp only
    split
    · exact (h _ _).trans ⟨keeps_mono (State.setAnswer_keeps _ _) rfl, rfl, rfl, rfl⟩
    · exact (h _ _).trans (State.endCollection_jobEnded _ _)

theorem State.setKbd_jobEnded (s : State) (k : Kbd) : JobEnded s (s.setKbd k) :=
  ⟨keeps_mono (State.setKbd_keeps s k) rfl, rfl, rfl, rfl⟩

theorem State.jobEnd_jobEnded (s : State) (j : Job) (r : JobResult) : JobEnded s (s.jobEnd j r) := by
  unfold State.jobEnd
  repeat' first
    | exact JobEnded.refl s
    | exact State.deliverEnd_jobEnded s r
    | exact State.settleEntry_jobEnded s _ _
    | exact State.setKbd_jobEnded s _
    | split

theorem State.emptySlot_jobEnded (s : State) : JobEnded s s.emptySlot :=
  ⟨keeps_mono (State.setSender_keeps s _) rfl, rfl, rfl, rfl⟩

theorem State.finishJob_jobEnded (s : State) (r : JobResult) : JobEnded s (s.finishJob r) := by
  unfold State.finishJob
  split
  · exact s.emptySlot_jobEnded
  · exact s.emptySlot_jobEnded.trans (State.jobEnd_jobEnded _ _ _)

/-- After the end of a job the Sender is IDLE, its slot empty, and what waited for the slot still waits. -/
theorem State.finishJob_sender (s : State) (r : JobResult) :
    (s.finishJob r).sender = { s.sender with phase := .idle, job := none, owed := [], wru := false, yld := .fresh } := by
  unfold State.finishJob
  split
  · rfl
  · exact (State.jobEnd_keeps s.emptySlot _ r) .sender (by decide)

theorem State.returnJob_jobEnded (s : State) : JobEnded s s.returnJob := by
  unfold State.returnJob
  repeat' first
    | exact s.emptySlot_jobEnded
    | exact State.finishJob_jobEnded s _
    | exact s.emptySlot_jobEnded.trans (State.setStore_jobEnded _ _ rfl)
    | exact s.emptySlot_jobEnded.trans (State.setKbd_jobEnded _ _)
    | split

theorem State.returnJob_sender (s : State) :
    s.returnJob.sender = { s.sender with phase := .idle, job := none, owed := [], wru := false, yld := .fresh } := by
  unfold State.returnJob
  repeat' first
    | rfl
    | exact State.finishJob_sender s _
    | split

/-! ### The end of a call (R64) -/

/-- The end of a message of a DELIVER changes no more of a call than the disposition of its record. -/
theorem State.endDeliver_tracker (s : State) (b : Bool) (c : Call) (h : s.tracker.call = some c) :
    ∃ x, (s.endDeliver b).tracker = { s.tracker with call := some { c with log := { c.log with disp := x } } } := by
  have e : s.tracker = { s.tracker with call := some { c with log := { c.log with disp := c.log.disp } } } := by
    rw [← h]
  unfold State.endDeliver
  split
  · exact ⟨_, e⟩
  · rename_i d _
    dsimp only
    split
    · exact ⟨_, e⟩
    · refine ⟨match d.recorded with
        | none => c.log.disp
        | some v => some (c.log.disp.elim v fun a => joinDisp a v), ?_⟩
      cases d.recorded <;> cases d.entry <;> dsimp only <;> split <;>
        simp only [State.setAnswer, State.setStore, State.setPrinter, State.modLog, State.modCall, State.setTracker, h,
          Option.map_some] <;> first | rfl | exact e

/-- R45: a call that the station itself opened has ended COMPLETE. -/
def Sender.courteous (x : Sender) (c : Call) (o : CallOutcome) : Sender :=
  if c.log.role = .caller ∧ o = .complete then { x with courtesy := true } else x

/-- R51: the Sender is in YIELD with the job that the call serves. -/
def Sender.yieldsFor (x : Sender) (c : Call) : Prop :=
  c.log.role = .caller ∧ x.phase = .yielding ∧ x.job.any (fun j => j.callSerial = some c.log.serial) = true

/-- What the end of a call leaves. -/
structure CallEnded (s t : State) (c : Call) (o : CallOutcome) : Prop where
  /-- The LIU and the blocks before the Sender are out of reach. -/
  frame : keeps callBlocks s t
  /-- The Sender keeps its phase and its job, or a yielded job ends with its call. -/
  sender : (¬s.sender.yieldsFor c → t.sender = s.sender.courteous c o) ∧
    (s.sender.yieldsFor c →
      t.sender =
        { s.sender.courteous c o with phase := .idle, job := none, owed := [], wru := false, yld := .fresh })
  /-- No call is held, and the record heads the log with its outcome. -/
  tracker : ∃ x, t.tracker =
    { s.tracker with
      call := none
      belongs := if s.tracker.belongs = .joined then .outside else s.tracker.belongs
      log := ({ c.log with disp := x, outcome := some o } :: s.tracker.log).take Config.logRecords }
  answer : t.answer.disp = none ∧ t.answer.callSpool = false ∧ t.answer.pending = false ∧ t.answer.poll = []
  claim : t.punch.claim = none
  right : t.printer.right ≠ .line c.log.serial

theorem State.collectionCallEnd_jobEnded (s : State) (n : Nat) : JobEnded s (s.collectionCallEnd n) := by
  unfold State.collectionCallEnd
  repeat' first
    | exact JobEnded.refl s
    | exact State.endCollection_jobEnded s _
    | exact ⟨keeps_mono (State.setAnswer_keeps _ _) rfl, rfl, rfl, rfl⟩
    | split

theorem State.callerCallEnd_jobEnded (s : State) (n : Nat) (o : CallOutcome) : JobEnded s (s.callerCallEnd n o) := by
  unfold State.callerCallEnd
  dsimp only
  generalize hy : (if o.bad then s.setKbd s.kbd.requestFailed else s) = y
  have h1 : JobEnded s y := by
    rw [← hy]
    split
    · exact State.setKbd_jobEnded s _
    · exact JobEnded.refl s
  generalize hz : (if o = .complete then y.setSender { y.sender with courtesy := true } else y) = z
  have h2 : JobEnded y z := by
    rw [← hz]
    split
    · exact ⟨keeps_mono (State.setSender_keeps _ _) rfl, rfl, rfl, rfl⟩
    · exact JobEnded.refl y
  split
  · exact (h1.trans h2).trans (State.finishJob_jobEnded z _)
  · exact h1.trans h2

/-- The LINE holding of a serial is over. -/
theorem Printer.endLine_right (p : Printer) (n : Nat) : (p.endLine n).right ≠ .line n := by
  unfold Printer.endLine
  split
  · exact fun h => by cases h
  · assumption

theorem Printer.still_right {p q : Printer} (h : p.still = q.still) : p.right = q.right :=
  show p.still.right = q.still.right by rw [h]

/-- The Sender at the end of a call that the station opened (R45, R51). -/
theorem State.callerCallEnd_sender (s : State) (c : Call) (o : CallOutcome) (h : c.log.role = .caller) :
    (¬s.sender.yieldsFor c → (s.callerCallEnd c.log.serial o).sender = s.sender.courteous c o) ∧
      (s.sender.yieldsFor c →
        (s.callerCallEnd c.log.serial o).sender =
          { s.sender.courteous c o with phase := .idle, job := none, owed := [], wru := false, yld := .fresh }) := by
  unfold State.callerCallEnd
  dsimp only
  generalize hy : (if o.bad then s.setKbd s.kbd.requestFailed else s) = y
  have y1 : y.sender = s.sender := by
    rw [← hy]
    split <;> rfl
  generalize hz : (if o = .complete then y.setSender { y.sender with courtesy := true } else y) = z
  have z1 : z.sender = s.sender.courteous c o := by
    rw [← hz, ← y1]
    unfold Sender.courteous
    by_cases k : o = .complete
    · rw [if_pos k, if_pos ⟨h, k⟩]; rfl
    · rw [if_neg k, if_neg fun q => k q.2]
  have p : z.sender.phase = s.sender.phase ∧ z.sender.job = s.sender.job := by
    rw [z1]
    unfold Sender.courteous
    split <;> exact ⟨rfl, rfl⟩
  rw [p.1, p.2]
  constructor
  · intro n
    rw [if_neg, z1]
    intro q
    rw [Bool.and_eq_true] at q
    exact n ⟨h, of_decide_eq_true q.1, q.2⟩
  · intro ⟨_, a, b⟩
    rw [if_pos (by rw [a, b]; rfl), State.finishJob_sender, z1]

/-- R64, step by step: the call closes (v), the entry settles (w), the job's operations follow (r). -/
theorem State.endCall_parts {s v w r : State} {o : CallOutcome} {c : Call} {x : Option Disp}
    (f : keeps callBlocks s v) (t1 : v.tracker = Tracker.close s.tracker { c with log := { c.log with disp := x } } o)
    (j1 : JobEnded v w)
    (j : JobEnded (((w.setPrinter (w.printer.endLine c.log.serial)).setPunch (w.punch.callEnd c.log.serial)).setAnswer
      w.answer.callEnd) r)
    (q : (¬s.sender.yieldsFor c → r.sender = s.sender.courteous c o) ∧
      (s.sender.yieldsFor c →
        r.sender = { s.sender.courteous c o with phase := .idle, job := none, owed := [], wru := false, yld := .fresh })) :
    CallEnded s (r.raise 3 (some c.log.serial)) c o := by
  have t2 : r.tracker = v.tracker := (j.frame .tracker (by decide)).trans (j1.frame .tracker (by decide))
  have k := State.raise_stirred r 3 (some c.log.serial)
  have a := k.jobEnded.answer.trans j.answer
  have a2 {β : Type} (f : Answer → β) (hf : ∀ q : Answer, f q = f q.bare) :
      f (r.raise 3 (some c.log.serial)).answer = f w.answer.callEnd := by rw [hf, a, ← hf]; rfl
  have m : keeps callBlocks w
      (((w.setPrinter (w.printer.endLine c.log.serial)).setPunch (w.punch.callEnd c.log.serial)).setAnswer
        w.answer.callEnd) :=
    keeps_step (keeps_step (keeps_mono (State.setPrinter_keeps _ _) rfl) (State.setPunch_keeps _ _) rfl)
      (State.setAnswer_keeps _ _) rfl
  refine ⟨keeps_step (keeps_step (keeps_trans (keeps_step f j1.frame rfl) m) j.frame rfl) k.frame rfl, ?_, ⟨x, ?_⟩,
    ⟨?_, ?_, ?_, ?_⟩, ?_, ?_⟩
  · rw [k.frame .sender (by decide)]; exact q
  · rw [k.tracker, t2, t1]; rfl
  · exact a2 (fun q => q.disp) fun _ => rfl
  · exact a2 (fun q => q.callSpool) fun _ => rfl
  · exact a2 (fun q => q.pending) fun _ => rfl
  · exact a2 (fun q => q.poll) fun _ => rfl
  · rw [k.frame .punch (by decide), j.frame .punch (by decide)]; rfl
  · rw [Printer.still_right (k.printer.trans j.printer)]
    exact Printer.endLine_right _ _

/-- R64, on the entry that settles (w). -/
theorem State.endCall_tail {s v w : State} {o : CallOutcome} {c : Call} {x : Option Disp} (f : keeps callBlocks s v)
    (t1 : v.tracker = Tracker.close s.tracker { c with log := { c.log with disp := x } } o) (j1 : JobEnded v w)
    (q : w.sender = s.sender) :
    let n := c.log.serial
    let y := ((w.setPrinter (w.printer.endLine n)).setPunch (w.punch.callEnd n)).setAnswer w.answer.callEnd
    let z := y.collectionCallEnd n
    CallEnded s ((if c.log.role = .caller then z.callerCallEnd n o else z).raise 3 (some n)) c o := by
  intro n y z
  have z1 : z.sender = s.sender := (State.collectionCallEnd_keeps y n .sender (by decide)).trans q
  by_cases h : c.log.role = .caller
  · rw [if_pos h]
    refine State.endCall_parts f t1 j1
      (JobEnded.trans (State.collectionCallEnd_jobEnded y n) (State.callerCallEnd_jobEnded z n o)) ?_
    rw [← z1]
    exact State.callerCallEnd_sender z c o h
  · rw [if_neg h]
    refine State.endCall_parts f t1 j1 (State.collectionCallEnd_jobEnded y n) ⟨fun _ => ?_, fun g => absurd g.1 h⟩
    rw [z1]
    unfold Sender.courteous
    rw [if_neg fun g => h g.1]

/-- R64: the held call ends. -/
theorem State.endCall_ended (s : State) (o : CallOutcome) (c : Call) (h : s.tracker.call = some c) :
    CallEnded s (s.endCall o) c o := by
  obtain ⟨x, hx⟩ := s.endDeliver_tracker false c h
  have hk := State.endDeliver_keeps s false
  unfold State.endCall
  dsimp only
  generalize s.endDeliver false = u at hx hk
  have e : u.tracker.call = some { c with log := { c.log with disp := x } } := by rw [hx]
  split
  · rename_i e2; rw [e] at e2; cases e2
  · rename_i d e2
    rw [e] at e2
    cases e2
    refine State.endCall_tail (s := s) (c := c) (o := o) (x := x)
      (v := (u.setTracker (u.tracker.close { c with log := { c.log with disp := x } } o)).setStore
        (u.store.callEnd c.log.serial o)) ?_ ?_ ?_ ?_
    · exact keeps_step (keeps_step (keeps_mono hk rfl) (State.setTracker_keeps _ _) rfl) (State.setStore_keeps _ _) rfl
    · show Tracker.close u.tracker _ _ = _
      rw [hx]; rfl
    · split
      · exact State.settleEntry_jobEnded _ _ _
      · exact JobEnded.refl _
    · split
      · exact (State.settleEntry_keeps _ _ _ .sender (by decide)).trans (hk .sender (by decide))
      · exact hk .sender (by decide)

/-- No call is held afterwards, and the record heads the log with the call's serial, role and outcome. -/
theorem CallEnded.record {s t : State} {c : Call} {o : CallOutcome} (h : CallEnded s t c o) :
    t.tracker.call = none ∧
      ∃ r rest, t.tracker.log = r :: rest ∧ r.serial = c.log.serial ∧ r.role = c.log.role ∧ r.outcome = some o := by
  obtain ⟨x, hx⟩ := h.tracker
  rw [hx]
  exact ⟨rfl, { c.log with disp := x, outcome := some o }, s.tracker.log.take 15, rfl, rfl, rfl, rfl⟩

/-- The end of a call leaves the LIU alone. -/
theorem State.endCall_frame (s : State) (o : CallOutcome) : keeps callBlocks s (s.endCall o) := by
  cases h : s.tracker.call with
  | some c => exact (s.endCall_ended o c h).frame
  | none =>
    have hk := State.endDeliver_keeps s false
    have n := State.endDeliver_noCall s false h
    unfold State.endCall
    dsimp only
    generalize s.endDeliver false = u at hk n
    rw [show u.tracker.call = none by rw [n, h]]
    exact keeps_mono hk rfl

theorem State.endCallR63_frame (s : State) : keeps callBlocks s s.endCallR63 := by
  unfold State.endCallR63
  split
  · exact keeps_refl _ s
  · exact State.endCall_frame s _

end Sys2Proof.Machine
end

