-- ==== Sys2Proof/Laws/Sound.lean ====
section
/-! SUPPORT. Every shared operation keeps the store sound. -/

namespace Sys2Proof.Machine

open Sys2Proof.Safety

/-- The store stays sound. -/
def soundTo (s t : State) : Prop := StoreSound s.store → StoreSound t.store

theorem soundTo_refl (s : State) : soundTo s s := id

theorem soundTo_trans {s t u : State} (h : soundTo s t) (k : soundTo t u) : soundTo s u := k ∘ h

/-- An operation that keeps the store. -/
theorem soundTo_keeps {as : List Block} {s t : State} (k : keeps as s t) (d : as.contains .store = false) :
    soundTo s t := by
  intro h
  have e : t.store = s.store := k .store (by simpa using d)
  rw [e]
  exact h

theorem soundTo_foldl {α : Type} (f : State → α → State) (hf : ∀ t a, soundTo t (f t a)) (xs : List α) (s : State) :
    soundTo s (xs.foldl f s) := by
  induction xs generalizing s with
  | nil => exact soundTo_refl s
  | cons x xs ih => exact soundTo_trans (hf s x) (ih (f s x))

theorem State.setStore_sound (s : State) (st : Store) (h : StoreSound s.store → StoreSound st) :
    soundTo s (s.setStore st) := h

theorem State.createReceived_sound (s : State) (d : DispRecord) (continued : Bool) :
    soundTo s (s.createReceived d continued).1 := by
  unfold State.createReceived
  try dsimp only
  repeat' first
    | with_reducible exact soundTo_refl _
    | with_reducible apply soundTo_trans (k := soundTo_keeps (State.modLog_keeps _ _) rfl)
    | refine soundTo_trans ?_ (State.setStore_sound _ _ fun h => Store.create_sound h _)
    | split

theorem State.switchOver_sound (s : State) (d : DispRecord) : soundTo s (s.switchOver d) := by
  unfold State.switchOver
  try dsimp only
  repeat' first
    | with_reducible exact soundTo_refl _
    | with_reducible apply soundTo_trans (k := soundTo_keeps (State.putDisp_keeps _ _) rfl)
    | with_reducible apply soundTo_trans (k := soundTo_keeps (State.setPrinter_keeps _ _) rfl)
    | with_reducible apply soundTo_trans (k := State.createReceived_sound _ _ _)
    | with_reducible apply soundTo_trans (k := soundTo_keeps (State.loseRest_keeps _ _) rfl)
    | split

theorem State.switchDirect_sound (s : State) : soundTo s s.switchDirect := by
  unfold State.switchDirect
  try dsimp only
  repeat' first
    | with_reducible exact soundTo_refl _
    | with_reducible apply soundTo_trans (k := State.switchOver_sound _ _)
    | split

theorem State.spoolCall_sound (s : State) : soundTo s s.spoolCall := by
  unfold State.spoolCall
  try dsimp only
  repeat' first
    | with_reducible exact soundTo_refl _
    | with_reducible apply soundTo_trans (k := soundTo_keeps (State.putDisp_keeps _ _) rfl)
    | with_reducible apply soundTo_trans (k := soundTo_keeps (State.setAnswer_keeps _ _) rfl)
    | with_reducible apply soundTo_trans (k := State.switchOver_sound _ _)
    | split

theorem State.doAction_sound (s : State) (serial : Option Nat) (a : BitVec 4) : soundTo s (s.doAction serial a) := by
  unfold State.doAction
  try dsimp only
  repeat' first
    | with_reducible exact soundTo_refl _
    | with_reducible apply soundTo_trans (k := soundTo_keeps (State.punchStop_keeps _) rfl)
    | with_reducible apply soundTo_trans (k := soundTo_keeps (State.setPrinter_keeps _ _) rfl)
    | refine soundTo_trans ?_ (State.setStore_sound _ _ fun h => Store.keepCall_sound h _)
    | exact State.setStore_sound _ _ fun h => storeSound_latches h _ _ _
    | with_reducible apply soundTo_trans (k := soundTo_keeps (State.setLinks_keeps _ _) rfl)
    | with_reducible apply soundTo_trans (k := State.spoolCall_sound _)
    | with_reducible apply soundTo_trans (k := soundTo_keeps (State.punchCall_keeps _) rfl)
    | split

theorem State.takeEvent_sound (s : State) (d : Unseen) (e : Event) : soundTo s (s.takeEvent d e) := by
  unfold State.takeEvent
  exact soundTo_trans (soundTo_foldl _ (fun t a => State.doAction_sound t e.call a) _ s)
    (soundTo_keeps (State.lateCode_keeps _ e) rfl)

theorem State.raise_sound (s : State) (ev : BitVec 4) (serial : Option Nat) : soundTo s (s.raise ev serial) :=
  soundTo_keeps (State.raise_keeps s ev serial) rfl

theorem State.raiseNone_sound (s : State) (ev : BitVec 4) : soundTo s (s.raise ev none) := State.raise_sound s ev none

theorem State.raiseHigh_sound (s : State) (allocated : Bool) : soundTo s (s.raiseHigh allocated) := by
  unfold State.raiseHigh
  try dsimp only
  repeat' first
    | with_reducible exact soundTo_refl _
    | with_reducible apply soundTo_trans (k := State.raiseNone_sound _ _)
    | split

theorem State.settleEntry_sound (s : State) (i : Nat) (o : CallOutcome) : soundTo s (s.settleEntry i o) := by
  unfold State.settleEntry
  try dsimp only
  repeat' first
    | with_reducible exact soundTo_refl _
    | refine soundTo_trans ?_ (State.setStore_sound _ _ fun h => Store.settle_sound h _ _)
    | with_reducible apply soundTo_trans (k := State.raiseNone_sound _ _)
    | split

theorem State.endCollection_sound (s : State) (c : Collection) : soundTo s (s.endCollection c) := by
  unfold State.endCollection
  try dsimp only
  repeat' first
    | with_reducible exact soundTo_refl _
    | with_reducible apply soundTo_trans (k := soundTo_keeps (State.setAnswer_keeps _ _) rfl)
    | with_reducible apply soundTo_trans (k := State.raiseNone_sound _ _)
    | split

theorem State.deliveryResult_sound (s : State) (c : Collection) (complete : Bool) :
    soundTo s (s.deliveryResult c complete) := by
  unfold State.deliveryResult
  try dsimp only
  repeat' first
    | with_reducible exact soundTo_refl _
    | refine soundTo_trans ?_ (State.setStore_sound _ _ fun h => Store.delivered_sound h _ _)
    | split

theorem State.deliverEnd_sound (s : State) (r : JobResult) : soundTo s (s.deliverEnd r) := by
  unfold State.deliverEnd
  try dsimp only
  repeat' first
    | with_reducible exact soundTo_refl _
    | with_reducible apply soundTo_trans (k := soundTo_keeps (State.setAnswer_keeps _ _) rfl)
    | with_reducible apply soundTo_trans (k := State.endCollection_sound _ _)
    | with_reducible apply soundTo_trans (k := State.deliveryResult_sound _ _ _)
    | split

theorem State.jobEnd_sound (s : State) (j : Job) (r : JobResult) : soundTo s (s.jobEnd j r) := by
  unfold State.jobEnd
  try dsimp only
  repeat' first
    | with_reducible exact soundTo_refl _
    | with_reducible apply soundTo_trans (k := State.settleEntry_sound _ _ _)
    | with_reducible apply soundTo_trans (k := soundTo_keeps (State.setKbd_keeps _ _) rfl)
    | with_reducible apply soundTo_trans (k := State.deliverEnd_sound _ _)
    | split

theorem State.finishJob_sound (s : State) (r : JobResult) : soundTo s (s.finishJob r) := by
  unfold State.finishJob
  try dsimp only
  repeat' first
    | with_reducible exact soundTo_refl _
    | with_reducible apply soundTo_trans (k := soundTo_keeps (State.emptySlot_keeps _) rfl)
    | with_reducible apply soundTo_trans (k := State.jobEnd_sound _ _ _)
    | split

theorem State.returnJob_sound (s : State) : soundTo s s.returnJob := by
  unfold State.returnJob
  try dsimp only
  repeat' first
    | with_reducible exact soundTo_refl _
    | with_reducible apply soundTo_trans (k := State.finishJob_sound _ _)
    | refine soundTo_trans ?_ (State.setStore_sound _ _ fun h => Store.returnOutbound_sound h _)
    | with_reducible apply soundTo_trans (k := soundTo_keeps (State.setKbd_keeps _ _) rfl)
    | with_reducible apply soundTo_trans (k := soundTo_keeps (State.emptySlot_keeps _) rfl)
    | split

theorem State.recontend_sound (s : State) : soundTo s s.recontend := by
  unfold State.recontend
  try dsimp only
  repeat' first
    | with_reducible exact soundTo_refl _
    | with_reducible apply soundTo_trans (k := soundTo_keeps (State.contend_keeps _ _) rfl)
    | refine soundTo_trans ?_ (State.setStore_sound _ _ fun h => Store.setSending_sound h _ _)
    | with_reducible apply soundTo_trans (k := soundTo_keeps (State.emptySlot_keeps _) rfl)
    | split

theorem State.giveObligation_sound (s : State) (j : Job) : soundTo s (s.giveObligation j) := by
  unfold State.giveObligation
  try dsimp only
  repeat' first
    | with_reducible exact soundTo_refl _
    | with_reducible apply soundTo_trans (k := State.returnJob_sound _)
    | with_reducible apply soundTo_trans (k := soundTo_keeps (State.setSender_keeps _ _) rfl)
    | with_reducible apply soundTo_trans (k := soundTo_keeps (State.takeObligation_keeps _ _) rfl)
    | split

theorem State.lapsePending_sound (s : State) : soundTo s s.lapsePending := by
  unfold State.lapsePending
  try dsimp only
  repeat' first
    | with_reducible exact soundTo_refl _
    | with_reducible apply soundTo_trans (k := soundTo_keeps (State.setSender_keeps _ _) rfl)
    | with_reducible apply soundTo_trans (k := State.jobEnd_sound _ _ _)
    | split

theorem State.endDeliver_sound (s : State) (broken : Bool) : soundTo s (s.endDeliver broken) := by
  unfold State.endDeliver
  try dsimp only
  repeat' first
    | with_reducible exact soundTo_refl _
    | refine soundTo_trans ?_ (State.setStore_sound _ _ fun h => Store.closeEntry_sound h _ _)
    | with_reducible apply soundTo_trans (k := soundTo_keeps (State.setPrinter_keeps _ _) rfl)
    | with_reducible apply soundTo_trans (k := soundTo_keeps (State.setAnswer_keeps _ _) rfl)
    | with_reducible apply soundTo_trans (k := soundTo_keeps (State.modLog_keeps _ _) rfl)
    | split

theorem State.collectionCallEnd_sound (s : State) (serial : Nat) : soundTo s (s.collectionCallEnd serial) := by
  unfold State.collectionCallEnd
  try dsimp only
  repeat' first
    | with_reducible exact soundTo_refl _
    | with_reducible apply soundTo_trans (k := State.endCollection_sound _ _)
    | with_reducible apply soundTo_trans (k := soundTo_keeps (State.setAnswer_keeps _ _) rfl)
    | split

theorem State.callerCallEnd_sound (s : State) (serial : Nat) (o : CallOutcome) :
    soundTo s (s.callerCallEnd serial o) := by
  unfold State.callerCallEnd
  try dsimp only
  repeat' first
    | with_reducible exact soundTo_refl _
    | with_reducible apply soundTo_trans (k := State.finishJob_sound _ _)
    | with_reducible apply soundTo_trans (k := soundTo_keeps (State.setSender_keeps _ _) rfl)
    | with_reducible apply soundTo_trans (k := soundTo_keeps (State.setKbd_keeps _ _) rfl)
    | split

theorem State.endCall_sound (s : State) (o : CallOutcome) : soundTo s (s.endCall o) := by
  unfold State.endCall
  try dsimp only
  repeat' first
    | with_reducible exact soundTo_refl _
    | with_reducible apply soundTo_trans (k := State.settleEntry_sound _ _ _)
    | with_reducible apply soundTo_trans (k := State.callerCallEnd_sound _ _ _)
    | refine soundTo_trans ?_ (State.setStore_sound _ _ fun h => Store.callEnd_sound h _ _)
    | with_reducible apply soundTo_trans (k := State.collectionCallEnd_sound _ _)
    | with_reducible apply soundTo_trans (k := soundTo_keeps (State.setPrinter_keeps _ _) rfl)
    | with_reducible apply soundTo_trans (k := State.endDeliver_sound _ _)
    | with_reducible apply soundTo_trans (k := soundTo_keeps (State.setAnswer_keeps _ _) rfl)
    | with_reducible apply soundTo_trans (k := soundTo_keeps (State.setPunch_keeps _ _) rfl)
    | with_reducible apply soundTo_trans (k := State.raise_sound _ _ _)
    | with_reducible apply soundTo_trans (k := soundTo_keeps (State.setTracker_keeps _ _) rfl)
    | split

theorem State.endCallR63_sound (s : State) : soundTo s s.endCallR63 := by
  unfold State.endCallR63
  try dsimp only
  repeat' first
    | with_reducible exact soundTo_refl _
    | with_reducible apply soundTo_trans (k := State.endCall_sound _ _)
    | split

theorem State.endJudging_sound (s : State) : soundTo s s.endJudging := by
  unfold State.endJudging
  try dsimp only
  repeat' first
    | with_reducible exact soundTo_refl _
    | with_reducible apply soundTo_trans (k := State.endCallR63_sound _)
    | split

theorem State.trySpool_sound (s : State) (d : DispRecord) : soundTo s (s.trySpool d).1 := by
  unfold State.trySpool
  try dsimp only
  repeat' first
    | with_reducible exact soundTo_refl _
    | with_reducible apply soundTo_trans (k := soundTo_keeps (State.putDisp_keeps _ _) rfl)
    | with_reducible apply soundTo_trans (k := State.createReceived_sound _ _ _)
    | with_reducible apply soundTo_trans (k := State.raiseHigh_sound _ _)
    | split

theorem State.decide_sound (s : State) (d : DispRecord) : soundTo s (s.decide d) := by
  unfold State.decide
  dsimp only
  split
  · split
    · exact State.trySpool_sound s d
    · cases h : (s.trySpool d).1.tryDirect d with
      | none => exact soundTo_trans (State.trySpool_sound s d) (soundTo_keeps (State.noPlace_keeps _ _) rfl)
      | some t => exact soundTo_trans (State.trySpool_sound s d) (soundTo_keeps (State.tryDirect_keeps _ _ t h) rfl)
  · split
    · exact soundTo_keeps (State.tryDirect_keeps _ _ _ (by assumption)) rfl
    · split
      · exact State.trySpool_sound s d
      · exact soundTo_trans (State.trySpool_sound s d) (soundTo_keeps (State.noPlace_keeps _ _) rfl)

theorem State.decideWindow_sound (s : State) : soundTo s s.decideWindow := by
  unfold State.decideWindow
  try dsimp only
  repeat' first
    | with_reducible exact soundTo_refl _
    | with_reducible apply soundTo_trans (k := State.decide_sound _ _)
    | split

theorem State.spoolCell_sound (s : State) (d : DispRecord) (c : Code) (err text : Bool) :
    soundTo s (s.spoolCell d c err text) := by
  unfold State.spoolCell
  try dsimp only
  repeat' first
    | with_reducible exact soundTo_refl _
    | with_reducible apply soundTo_trans (k := soundTo_keeps (State.putDisp_keeps _ _) rfl)
    | refine soundTo_trans ?_ (State.setStore_sound _ _ fun h => Store.writeCell_sound h _ _ _)
    | with_reducible apply soundTo_trans (k := State.raiseHigh_sound _ _)
    | with_reducible apply soundTo_trans (k := soundTo_keeps (State.loseRest_keeps _ _) rfl)
    | split

theorem State.spoolShift_sound (s : State) : soundTo s s.spoolShift := by
  unfold State.spoolShift
  try dsimp only
  repeat' first
    | with_reducible exact soundTo_refl _
    | with_reducible apply soundTo_trans (k := State.spoolCell_sound _ _ _ _ _)
    | split

theorem State.spoolCode_sound (s : State) (c : Code) (err : Bool) : soundTo s (s.spoolCode c err) := by
  unfold State.spoolCode
  try dsimp only
  repeat' first
    | with_reducible exact soundTo_refl _
    | with_reducible apply soundTo_trans (k := State.spoolCell_sound _ _ _ _ _)
    | with_reducible apply soundTo_trans (k := State.spoolShift_sound _)
    | split

theorem State.printFull_sound (s : State) (d : DispRecord) (c : Code) (err : Bool) :
    soundTo s (s.printFull d c err) := by
  unfold State.printFull
  try dsimp only
  repeat' first
    | with_reducible exact soundTo_refl _
    | with_reducible apply soundTo_trans (k := State.switchOver_sound _ _)
    | with_reducible apply soundTo_trans (k := State.spoolCode_sound _ _ _)
    | with_reducible apply soundTo_trans (k := State.raiseHigh_sound _ _)

theorem State.passCode_sound (s : State) (c : Code) (err : Bool) (k : Case) : soundTo s (s.passCode c err k) := by
  unfold State.passCode
  try dsimp only
  repeat' first
    | with_reducible exact soundTo_refl _
    | with_reducible apply soundTo_trans (k := soundTo_keeps (State.putDisp_keeps _ _) rfl)
    | with_reducible apply soundTo_trans (k := State.spoolCode_sound _ _ _)
    | with_reducible apply soundTo_trans (k := soundTo_keeps (State.setPrinter_keeps _ _) rfl)
    | with_reducible apply soundTo_trans (k := State.printFull_sound _ _ _ _)
    | split

theorem State.markDoubtful_sound (s : State) : soundTo s s.markDoubtful := by
  unfold State.markDoubtful
  try dsimp only
  repeat' first
    | with_reducible exact soundTo_refl _
    | with_reducible apply soundTo_trans (k := soundTo_keeps (State.modLog_keeps _ _) rfl)
    | refine soundTo_trans ?_ (State.setStore_sound _ _ fun h => Store.markDoubtful_sound h _)
    | split

theorem State.dispTextStart_sound (s : State) : soundTo s s.dispTextStart := by
  unfold State.dispTextStart
  try dsimp only
  repeat' first
    | with_reducible exact soundTo_refl _
    | with_reducible apply soundTo_trans (k := State.spoolCell_sound _ _ _ _ _)
    | with_reducible apply soundTo_trans (k := soundTo_keeps (State.putDisp_keeps _ _) rfl)
    | split

theorem State.enterText_sound (s : State) : soundTo s s.enterText := by
  unfold State.enterText
  try dsimp only
  repeat' first
    | with_reducible exact soundTo_refl _
    | with_reducible apply soundTo_trans (k := soundTo_keeps (State.textStart_keeps _) rfl)
    | with_reducible apply soundTo_trans (k := State.markDoubtful_sound _)
    | with_reducible apply soundTo_trans (k := State.dispTextStart_sound _)
    | with_reducible apply soundTo_trans (k := soundTo_keeps (State.setListener_keeps _ _) rfl)
    | split

theorem State.giveDeliver_sound (s : State) (c : Collection) (entry : Option Nat) :
    soundTo s (s.giveDeliver c entry) := by
  unfold State.giveDeliver
  try dsimp only
  repeat' first
    | with_reducible exact soundTo_refl _
    | with_reducible apply soundTo_trans (k := soundTo_keeps (State.setAnswer_keeps _ _) rfl)
    | refine soundTo_trans ?_ (State.setStore_sound _ _ fun h => Store.takeHeld_sound h _ _)
    | with_reducible apply soundTo_trans (k := State.giveObligation_sound _ _)
    | split

theorem State.collectionStep_sound (s : State) (c : Collection) : soundTo s (s.collectionStep c) := by
  unfold State.collectionStep
  try dsimp only
  repeat' first
    | with_reducible exact soundTo_refl _
    | with_reducible apply soundTo_trans (k := State.endCollection_sound _ _)
    | with_reducible apply soundTo_trans (k := State.giveDeliver_sound _ _ _)
    | split

theorem State.beginCollection_sound (s : State) : soundTo s s.beginCollection := by
  unfold State.beginCollection
  try dsimp only
  repeat' first
    | with_reducible exact soundTo_refl _
    | with_reducible apply soundTo_trans (k := State.collectionStep_sound _ _)

theorem State.judgePoll_sound (s : State) (codes : List Code) : soundTo s (s.judgePoll codes) := by
  unfold State.judgePoll
  try dsimp only
  repeat' first
    | with_reducible exact soundTo_refl _
    | with_reducible apply soundTo_trans (k := soundTo_keeps (State.setAnswer_keeps _ _) rfl)
    | with_reducible apply soundTo_trans (k := State.beginCollection_sound _)
    | split

theorem State.pollEnded_sound (s : State) : soundTo s s.pollEnded := by
  unfold State.pollEnded
  try dsimp only
  repeat' first
    | with_reducible exact soundTo_refl _
    | with_reducible apply soundTo_trans (k := soundTo_keeps (State.setAnswer_keeps _ _) rfl)
    | with_reducible apply soundTo_trans (k := State.judgePoll_sound _ _)
    | split

theorem State.collectionRest_sound (s : State) : soundTo s s.collectionRest := by
  unfold State.collectionRest
  try dsimp only
  repeat' first
    | with_reducible exact soundTo_refl _
    | with_reducible apply soundTo_trans (k := State.collectionStep_sound _ _)
    | split

theorem State.giveAnswer_sound (s : State) : soundTo s s.giveAnswer := by
  unfold State.giveAnswer
  try dsimp only
  repeat' first
    | with_reducible exact soundTo_refl _
    | with_reducible apply soundTo_trans (k := State.giveObligation_sound _ _)
    | split

theorem State.takeJob_sound (s : State) : soundTo s s.takeJob := by
  unfold State.takeJob
  try dsimp only
  repeat' first
    | with_reducible exact soundTo_refl _
    | with_reducible apply soundTo_trans (k := soundTo_keeps (State.contend_keeps _ _) rfl)
    | with_reducible apply soundTo_trans (k := soundTo_keeps (State.takeObligation_keeps _ _) rfl)
    | with_reducible apply soundTo_trans (k := soundTo_keeps (State.setKbd_keeps _ _) rfl)
    | refine soundTo_trans ?_ (State.setStore_sound _ _ fun h => Store.takeOutbound_sound h _)
    | split

theorem State.askStart_sound (s : State) : soundTo s s.askStart := by
  unfold State.askStart
  try dsimp only
  repeat' first
    | with_reducible exact soundTo_refl _
    | with_reducible apply soundTo_trans (k := soundTo_keeps (State.startSending_keeps _ _) rfl)
    | with_reducible apply soundTo_trans (k := State.returnJob_sound _)
    | split

theorem State.sendingSent_sound (s : State) : soundTo s s.sendingSent := by
  unfold State.sendingSent
  try dsimp only
  repeat' first
    | with_reducible exact soundTo_refl _
    | with_reducible apply soundTo_trans (k := State.finishJob_sound _ _)
    | with_reducible apply soundTo_trans (k := soundTo_keeps (State.setLiu_keeps _ _) rfl)

theorem State.handCell_sound (s : State) (i : Nat) : soundTo s (s.handCell i) := by
  unfold State.handCell
  try dsimp only
  repeat' first
    | with_reducible exact soundTo_refl _
    | with_reducible apply soundTo_trans (k := soundTo_keeps (State.enterStopping_keeps _) rfl)
    | with_reducible apply soundTo_trans (k := soundTo_keeps (State.setSender_keeps _ _) rfl)
    | refine soundTo_trans ?_ (State.setStore_sound _ _ fun h => Store.readCell_sound h _ _)
    | with_reducible apply soundTo_trans (k := soundTo_keeps (State.handCode_keeps _ _ _) rfl)
    | split

theorem State.handList_sound (s : State) (cs : List Code) (atEnd : State) (h : soundTo s atEnd) :
    soundTo s (s.handList cs atEnd) := by
  unfold State.handList
  split
  · exact soundTo_trans (soundTo_keeps (State.setSender_keeps _ _) rfl) (soundTo_keeps (State.handCode_keeps _ _ _) rfl)
  · exact h

theorem State.handText_sound (s : State) : soundTo s s.handText := by
  unfold State.handText
  split
  · exact soundTo_keeps (State.handCode_keeps _ _ _) rfl
  split
  · exact soundTo_keeps (State.handHold_keeps _) rfl
  split
  · exact soundTo_keeps (State.handKeyboard_keeps _) rfl
  · exact State.handCell_sound _ _
  · exact soundTo_keeps (State.enterStopping_keeps _) rfl
  · exact State.handList_sound _ _ _ (State.sendingSent_sound _)
  · exact State.handList_sound _ _ _ (soundTo_keeps (State.enterStopping_keeps _) rfl)

theorem State.enterSendText_sound (s : State) : soundTo s s.enterSendText := by
  unfold State.enterSendText
  try dsimp only
  repeat' first
    | with_reducible exact soundTo_refl _
    | with_reducible apply soundTo_trans (k := State.handText_sound _)
    | with_reducible apply soundTo_trans (k := soundTo_keeps (State.setSender_keeps _ _) rfl)

theorem State.checkHeader_sound (s : State) : soundTo s s.checkHeader := by
  unfold State.checkHeader
  try dsimp only
  repeat' first
    | with_reducible exact soundTo_refl _
    | with_reducible apply soundTo_trans (k := State.finishJob_sound _ _)
    | with_reducible apply soundTo_trans (k := soundTo_keeps (State.setLiu_keeps _ _) rfl)
    | with_reducible apply soundTo_trans (k := State.enterSendText_sound _)
    | with_reducible apply soundTo_trans (k := soundTo_keeps (State.setSender_keeps _ _) rfl)
    | with_reducible apply soundTo_trans (k := State.recontend_sound _)
    | with_reducible apply soundTo_trans (k := soundTo_keeps (State.handHold_keeps _) rfl)
    | split

theorem State.holdEnded_sound (s : State) : soundTo s s.holdEnded := by
  unfold State.holdEnded
  try dsimp only
  repeat' first
    | with_reducible exact soundTo_refl _
    | with_reducible apply soundTo_trans (k := State.handText_sound _)
    | with_reducible apply soundTo_trans (k := soundTo_keeps (State.setSender_keeps _ _) rfl)
    | split

theorem State.handNext_sound (s : State) (hold : Bool) : soundTo s (s.handNext hold) := by
  unfold State.handNext
  try dsimp only
  repeat' first
    | with_reducible exact soundTo_refl _
    | with_reducible apply soundTo_trans (k := State.checkHeader_sound _)
    | with_reducible apply soundTo_trans (k := soundTo_keeps (State.setSender_keeps _ _) rfl)
    | with_reducible apply soundTo_trans (k := soundTo_keeps (State.enterYield_keeps _) rfl)
    | with_reducible apply soundTo_trans (k := State.sendingSent_sound _)
    | with_reducible apply soundTo_trans (k := State.handText_sound _)
    | with_reducible apply soundTo_trans (k := soundTo_keeps (State.handCode_keeps _ _ _) rfl)
    | with_reducible apply soundTo_trans (k := soundTo_keeps (State.handHeader_keeps _ _ _) rfl)
    | with_reducible apply soundTo_trans (k := soundTo_keeps (State.setLiu_keeps _ _) rfl)
    | with_reducible apply soundTo_trans (k := State.enterSendText_sound _)
    | with_reducible apply soundTo_trans (k := soundTo_keeps (State.enterHeader_keeps _) rfl)
    | with_reducible apply soundTo_trans (k := State.holdEnded_sound _)
    | with_reducible apply soundTo_trans (k := soundTo_keeps (State.handHold_keeps _) rfl)
    | split

theorem State.elementEnd_sound (s : State) : soundTo s s.elementEnd := by
  unfold State.elementEnd
  try dsimp only
  repeat' first
    | with_reducible exact soundTo_refl _
    | with_reducible apply soundTo_trans (k := soundTo_keeps (State.ownHold_keeps _) rfl)
    | with_reducible apply soundTo_trans (k := soundTo_keeps (State.setLiu_keeps _ _) rfl)
    | with_reducible apply soundTo_trans (k := State.handNext_sound _ _)
    | split

theorem State.classifyBreak_sound (s : State) : soundTo s s.classifyBreak := by
  unfold State.classifyBreak
  try dsimp only
  repeat' first
    | with_reducible exact soundTo_refl _
    | with_reducible apply soundTo_trans (k := State.finishJob_sound _ _)
    | split

theorem State.classifyWatch_sound (s : State) : soundTo s s.classifyWatch := by
  unfold State.classifyWatch
  try dsimp only
  repeat' first
    | with_reducible exact soundTo_refl _
    | with_reducible apply soundTo_trans (k := State.finishJob_sound _ _)
    | with_reducible apply soundTo_trans (k := State.recontend_sound _)
    | with_reducible apply soundTo_trans (k := State.endCall_sound _ _)
    | split

theorem State.senderBreak_sound (s : State) : soundTo s s.senderBreak := by
  unfold State.senderBreak
  try dsimp only
  repeat' first
    | with_reducible exact soundTo_refl _
    | with_reducible apply soundTo_trans (k := soundTo_keeps (State.setLiu_keeps _ _) rfl)
    | with_reducible apply soundTo_trans (k := soundTo_keeps (State.setSender_keeps _ _) rfl)
    | with_reducible apply soundTo_trans (k := State.classifyBreak_sound _)
    | split

theorem State.senderFault_sound (s : State) : soundTo s s.senderFault := by
  unfold State.senderFault
  try dsimp only
  repeat' first
    | with_reducible exact soundTo_refl _
    | with_reducible apply soundTo_trans (k := State.returnJob_sound _)
    | with_reducible apply soundTo_trans (k := State.finishJob_sound _ _)
    | split

theorem State.senderRestEnded_sound (s : State) : soundTo s s.senderRestEnded := by
  unfold State.senderRestEnded
  try dsimp only
  repeat' first
    | with_reducible exact soundTo_refl _
    | with_reducible apply soundTo_trans (k := State.finishJob_sound _ _)
    | with_reducible apply soundTo_trans (k := State.lapsePending_sound _)
    | with_reducible apply soundTo_trans (k := soundTo_keeps (State.setSender_keeps _ _) rfl)
    | split

theorem State.breakKey_sound (s : State) : soundTo s s.breakKey := by
  unfold State.breakKey
  try dsimp only
  repeat' first
    | with_reducible exact soundTo_refl _
    | with_reducible apply soundTo_trans (k := State.finishJob_sound _ _)
    | with_reducible apply soundTo_trans (k := soundTo_keeps (State.setLiu_keeps _ _) rfl)
    | with_reducible apply soundTo_trans (k := soundTo_keeps (State.requestBurst_keeps _) rfl)
    | with_reducible apply soundTo_trans (k := State.endCall_sound _ _)
    | split

theorem State.trackError_sound (s : State) : soundTo s s.trackError := by
  unfold State.trackError
  try dsimp only
  repeat' first
    | with_reducible exact soundTo_refl _
    | with_reducible apply soundTo_trans (k := State.markDoubtful_sound _)
    | with_reducible apply soundTo_trans (k := soundTo_keeps (State.modLog_keeps _ _) rfl)
    | with_reducible apply soundTo_trans (k := soundTo_keeps (State.setTracker_keeps _ _) rfl)
    | split

theorem State.errorEvent_sound (s : State) : soundTo s s.errorEvent := by
  unfold State.errorEvent
  try dsimp only
  repeat' first
    | with_reducible exact soundTo_refl _
    | with_reducible apply soundTo_trans (k := soundTo_keeps (State.setPort_keeps _ _) rfl)
    | with_reducible apply soundTo_trans (k := soundTo_keeps (State.setQuality_keeps _ _) rfl)
    | with_reducible apply soundTo_trans (k := State.trackError_sound _)

theorem State.tieJob_sound (s : State) (serial : Nat) : soundTo s (s.tieJob serial) := by
  unfold State.tieJob
  try dsimp only
  repeat' first
    | with_reducible exact soundTo_refl _
    | with_reducible apply soundTo_trans (k := soundTo_keeps (State.setSender_keeps _ _) rfl)
    | refine soundTo_trans ?_ (State.setStore_sound _ _ fun h => Store.setSending_sound h _ _)
    | split

theorem State.openCall_sound (s : State) (role : Role) (origin : StationCode) (kind : CallKind) (dest : StationCode) :
    soundTo s (s.openCall role origin kind dest) := by
  unfold State.openCall
  try dsimp only
  repeat' first
    | with_reducible exact soundTo_refl _
    | with_reducible apply soundTo_trans (k := soundTo_keeps (State.setAnswer_keeps _ _) rfl)
    | with_reducible apply soundTo_trans (k := State.endCallR63_sound _)
    | with_reducible apply soundTo_trans (k := State.tieJob_sound _ _)
    | with_reducible apply soundTo_trans (k := soundTo_keeps (State.setPunch_keeps _ _) rfl)
    | with_reducible apply soundTo_trans (k := State.raise_sound _ _ _)
    | with_reducible apply soundTo_trans (k := soundTo_keeps (State.setTracker_keeps _ _) rfl)
    | split

theorem State.outside_sound (s : State) : soundTo s s.outside := by
  unfold State.outside
  try dsimp only
  repeat' first
    | with_reducible exact soundTo_refl _
    | with_reducible apply soundTo_trans (k := soundTo_keeps (State.setTracker_keeps _ _) rfl)
    | with_reducible apply soundTo_trans (k := State.endJudging_sound _)

theorem State.openingHeader_sound (s : State) (origin : StationCode) (kind : CallKind) (dest : StationCode) :
    soundTo s (s.openingHeader origin kind dest) := by
  unfold State.openingHeader
  try dsimp only
  repeat' first
    | with_reducible exact soundTo_refl _
    | with_reducible apply soundTo_trans (k := State.openCall_sound _ _ _ _ _)
    | with_reducible apply soundTo_trans (k := State.outside_sound _)
    | split

theorem State.deliverHeader_sound (s : State) (origin dest : StationCode) :
    soundTo s (s.deliverHeader origin dest) := by
  unfold State.deliverHeader
  try dsimp only
  repeat' first
    | with_reducible exact soundTo_refl _
    | with_reducible apply soundTo_trans (k := State.decide_sound _ _)
    | split

theorem State.fittingHeader_sound (s : State) (origin : StationCode) (kind : SendKind) (dest : StationCode) :
    soundTo s (s.fittingHeader origin kind dest) := by
  unfold State.fittingHeader
  try dsimp only
  repeat' first
    | with_reducible exact soundTo_refl _
    | with_reducible apply soundTo_trans (k := State.deliverHeader_sound _ _ _)
    | with_reducible apply soundTo_trans (k := soundTo_keeps (State.modCall_keeps _ _) rfl)
    | with_reducible apply soundTo_trans (k := soundTo_keeps (State.yieldAnswered_keeps _) rfl)
    | with_reducible apply soundTo_trans (k := soundTo_keeps (State.setTracker_keeps _ _) rfl)
    | split

theorem State.followingHeader_sound (s : State) (origin : StationCode) (kind : SendKind) (dest : StationCode) :
    soundTo s (s.followingHeader origin kind dest) := by
  unfold State.followingHeader
  try dsimp only
  repeat' first
    | with_reducible exact soundTo_refl _
    | with_reducible apply soundTo_trans (k := State.outside_sound _)
    | with_reducible apply soundTo_trans (k := State.fittingHeader_sound _ _ _ _)
    | split

theorem State.headerResult_sound (s : State) (h : Hdr) : soundTo s (s.headerResult h) := by
  unfold State.headerResult
  try dsimp only
  repeat' first
    | with_reducible exact soundTo_refl _
    | with_reducible apply soundTo_trans (k := State.followingHeader_sound _ _ _ _)
    | with_reducible apply soundTo_trans (k := soundTo_keeps (State.setListener_keeps _ _) rfl)
    | with_reducible apply soundTo_trans (k := State.openingHeader_sound _ _ _ _)
    | with_reducible apply soundTo_trans (k := State.outside_sound _)
    | with_reducible apply soundTo_trans (k := State.enterText_sound _)
    | split

theorem State.callText_sound (s : State) (c : Code) (err : Bool) (k : Case) (fn : Option TextFn) :
    soundTo s (s.callText c err k fn) := by
  unfold State.callText
  try dsimp only
  repeat' first
    | with_reducible exact soundTo_refl _
    | with_reducible apply soundTo_trans (k := soundTo_keeps (State.punchCode_keeps _ _) rfl)
    | with_reducible apply soundTo_trans (k := soundTo_keeps (State.dispEom_keeps _ _) rfl)
    | with_reducible apply soundTo_trans (k := soundTo_keeps (State.modCall_keeps _ _) rfl)
    | with_reducible apply soundTo_trans (k := State.passCode_sound _ _ _ _)
    | with_reducible apply soundTo_trans (k := soundTo_keeps (State.bellText_keeps _ _) rfl)
    | with_reducible apply soundTo_trans (k := soundTo_keeps (State.wruHeard_keeps _) rfl)
    | with_reducible apply soundTo_trans (k := soundTo_keeps (State.gatherPoll_keeps _ _ _) rfl)
    | split

theorem State.textChar_sound (s : State) (c : Code) (err : Bool) : soundTo s (s.textChar c err) := by
  unfold State.textChar
  try dsimp only
  repeat' first
    | with_reducible exact soundTo_refl _
    | with_reducible apply soundTo_trans (k := State.callText_sound _ _ _ _ _)
    | with_reducible apply soundTo_trans (k := soundTo_keeps (State.setListener_keeps _ _) rfl)
    | split

theorem State.giveWindowEnd_sound (s : State) : soundTo s s.giveWindowEnd := by
  unfold State.giveWindowEnd
  try dsimp only
  repeat' first
    | with_reducible exact soundTo_refl _
    | with_reducible apply soundTo_trans (k := State.enterText_sound _)
    | with_reducible apply soundTo_trans (k := State.decideWindow_sound _)
    | split

theorem State.earlyChar_sound (s : State) (c : Code) (err : Bool) : soundTo s (s.earlyChar c err) := by
  unfold State.earlyChar
  try dsimp only
  repeat' first
    | with_reducible exact soundTo_refl _
    | with_reducible apply soundTo_trans (k := soundTo_keeps (State.giveRefusalPoint_keeps _) rfl)
    | with_reducible apply soundTo_trans (k := State.giveWindowEnd_sound _)
    | with_reducible apply soundTo_trans (k := State.textChar_sound _ _ _)
    | split

theorem State.character_sound (s : State) (c : Code) (err : Bool) : soundTo s (s.character c err) := by
  unfold State.character
  try dsimp only
  repeat' first
    | with_reducible exact soundTo_refl _
    | with_reducible apply soundTo_trans (k := State.earlyChar_sound _ _ _)
    | with_reducible apply soundTo_trans (k := State.textChar_sound _ _ _)
    | with_reducible apply soundTo_trans (k := State.headerResult_sound _ _)
    | with_reducible apply soundTo_trans (k := soundTo_keeps (State.setListener_keeps _ _) rfl)
    | split

theorem State.unframed_sound (s : State) : soundTo s s.unframed := by
  unfold State.unframed
  try dsimp only
  repeat' first
    | with_reducible exact soundTo_refl _
    | with_reducible apply soundTo_trans (k := State.outside_sound _)
    | with_reducible apply soundTo_trans (k := soundTo_keeps (State.setListener_keeps _ _) rfl)
    | split

theorem State.report_sound (s : State) (r : Report) : soundTo s (s.report r) := by
  cases r <;> unfold State.report
  · exact soundTo_keeps (State.leadIn_keeps s) rfl
  · exact State.unframed_sound s
  · exact soundTo_keeps (State.markElement_keeps s) rfl
  · exact State.errorEvent_sound s
  · exact soundTo_trans (soundTo_keeps (State.trackDistortion_keeps s _) rfl) (State.character_sound _ _ _)

theorem State.restEnded_sound (s : State) : soundTo s s.restEnded := by
  unfold State.restEnded
  try dsimp only
  repeat' first
    | with_reducible exact soundTo_refl _
    | with_reducible apply soundTo_trans (k := State.senderRestEnded_sound _)
    | with_reducible apply soundTo_trans (k := soundTo_keeps (State.setLiu_keeps _ _) rfl)
    | with_reducible apply soundTo_trans (k := soundTo_keeps (State.modCall_keeps _ _) rfl)
    | with_reducible apply soundTo_trans (k := soundTo_keeps (State.setListener_keeps _ _) rfl)
    | split

theorem State.listenerEnd_sound (s : State) (broken : Bool) : soundTo s (s.listenerEnd broken) := by
  unfold State.listenerEnd
  try dsimp only
  repeat' first
    | with_reducible exact soundTo_refl _
    | with_reducible apply soundTo_trans (k := State.endDeliver_sound _ _)
    | with_reducible apply soundTo_trans (k := soundTo_keeps (State.setListener_keeps _ _) rfl)
    | with_reducible apply soundTo_trans (k := soundTo_keeps (State.setTracker_keeps _ _) rfl)
    | split

theorem State.callRest_sound (s : State) : soundTo s s.callRest := by
  unfold State.callRest
  try dsimp only
  repeat' first
    | with_reducible exact soundTo_refl _
    | with_reducible apply soundTo_trans (k := State.endCallR63_sound _)
    | with_reducible apply soundTo_trans (k := soundTo_keeps (State.modCall_keeps _ _) rfl)
    | split

theorem State.answerRest_sound (s : State) (poll : Bool) : soundTo s (s.answerRest poll) := by
  unfold State.answerRest
  try dsimp only
  repeat' first
    | with_reducible exact soundTo_refl _
    | with_reducible apply soundTo_trans (k := soundTo_keeps (State.setAnswer_keeps _ _) rfl)
    | with_reducible apply soundTo_trans (k := State.pollEnded_sound _)
    | with_reducible apply soundTo_trans (k := State.collectionRest_sound _)
    | with_reducible apply soundTo_trans (k := State.giveAnswer_sound _)
    | split

theorem State.restRecognised_sound (s : State) : soundTo s s.restRecognised := by
  unfold State.restRecognised
  try dsimp only
  repeat' first
    | with_reducible exact soundTo_refl _
    | with_reducible apply soundTo_trans (k := soundTo_keeps (State.setLiu_keeps _ _) rfl)
    | with_reducible apply soundTo_trans (k := State.classifyWatch_sound _)
    | with_reducible apply soundTo_trans (k := State.callRest_sound _)
    | with_reducible apply soundTo_trans (k := soundTo_keeps (State.setFramer_keeps _ _) rfl)
    | with_reducible apply soundTo_trans (k := State.answerRest_sound _ _)
    | with_reducible apply soundTo_trans (k := State.listenerEnd_sound _ _)
    | split

theorem State.callBreak_sound (s : State) : soundTo s s.callBreak := by
  unfold State.callBreak
  try dsimp only
  repeat' first
    | with_reducible exact soundTo_refl _
    | with_reducible apply soundTo_trans (k := State.endCallR63_sound _)
    | with_reducible apply soundTo_trans (k := State.endCall_sound _ _)
    | split

theorem State.breakSeen_sound (s : State) : soundTo s s.breakSeen := by
  unfold State.breakSeen
  try dsimp only
  repeat' first
    | with_reducible exact soundTo_refl _
    | with_reducible apply soundTo_trans (k := soundTo_keeps (State.setLiu_keeps _ _) rfl)
    | with_reducible apply soundTo_trans (k := soundTo_keeps (State.setGauge_keeps _ _) rfl)
    | with_reducible apply soundTo_trans (k := State.senderBreak_sound _)
    | with_reducible apply soundTo_trans (k := soundTo_keeps (State.answerCut_keeps _) rfl)
    | with_reducible apply soundTo_trans (k := State.endDeliver_sound _ _)
    | with_reducible apply soundTo_trans (k := State.callBreak_sound _)
    | with_reducible apply soundTo_trans (k := State.raiseNone_sound _ _)
    | with_reducible apply soundTo_trans (k := soundTo_keeps (State.setFramer_keeps _ _) rfl)
    | with_reducible apply soundTo_trans (k := State.listenerEnd_sound _ _)
    | split

theorem State.frameSample_sound (s : State) (x : Level) : soundTo s (s.frameSample x) := by
  unfold State.frameSample
  dsimp only
  refine soundTo_trans ?_ (soundTo_foldl _ (fun t a => State.report_sound t a) _ _)
  exact soundTo_keeps (keeps_step (keeps_mono (State.setFramer_keeps _ _) rfl) (State.setGauge_keeps _ _) rfl :
    keeps [.framer, .gauge] _ _) rfl

theorem State.standDown_sound (s : State) : soundTo s s.standDown := by
  unfold State.standDown
  try dsimp only
  repeat' first
    | with_reducible exact soundTo_refl _
    | with_reducible apply soundTo_trans (k := State.frameSample_sound _ _)
    | with_reducible apply soundTo_trans (k := soundTo_keeps (State.setGauge_keeps _ _) rfl)
    | with_reducible apply soundTo_trans (k := soundTo_keeps (State.setFramer_keeps _ _) rfl)
    | split

theorem State.lineFault_sound (s : State) : soundTo s s.lineFault := by
  unfold State.lineFault
  try dsimp only
  repeat' first
    | with_reducible exact soundTo_refl _
    | with_reducible apply soundTo_trans (k := State.restEnded_sound _)
    | with_reducible apply soundTo_trans (k := State.listenerEnd_sound _ _)
    | with_reducible apply soundTo_trans (k := soundTo_keeps (State.setLiu_keeps _ _) rfl)
    | with_reducible apply soundTo_trans (k := soundTo_keeps (State.answerCut_keeps _) rfl)
    | with_reducible apply soundTo_trans (k := State.senderFault_sound _)
    | with_reducible apply soundTo_trans (k := State.endCall_sound _ _)
    | with_reducible apply soundTo_trans (k := State.standDown_sound _)
    | split

theorem State.sampleLine_sound (s : State) (rxP rxN : Bool) : soundTo s (s.sampleLine rxP rxN) := by
  unfold State.sampleLine
  try dsimp only
  repeat' first
    | with_reducible exact soundTo_refl _
    | with_reducible apply soundTo_trans (k := State.restEnded_sound _)
    | with_reducible apply soundTo_trans (k := State.frameSample_sound _ _)
    | with_reducible apply soundTo_trans (k := soundTo_keeps (State.setLiu_keeps _ _) rfl)
    | with_reducible apply soundTo_trans (k := State.lineFault_sound _)
    | with_reducible apply soundTo_trans (k := soundTo_keeps (State.driveSample_keeps _ _) rfl)
    | split

theorem State.flagChange_sound (s : State) : soundTo s s.flagChange := by
  unfold State.flagChange
  try dsimp only
  repeat' first
    | with_reducible exact soundTo_refl _
    | with_reducible apply soundTo_trans (k := State.markDoubtful_sound _)
    | with_reducible apply soundTo_trans (k := soundTo_keeps (State.setQuality_keeps _ _) rfl)
    | with_reducible apply soundTo_trans (k := State.raiseNone_sound _ _)
    | split

theorem State.createPrepared_sound (s : State) (d : StationCode) : soundTo s (s.createPrepared d) := by
  unfold State.createPrepared
  try dsimp only
  repeat' first
    | with_reducible exact soundTo_refl _
    | refine soundTo_trans ?_ (State.setStore_sound _ _ fun h => Store.create_sound h _)
    | with_reducible apply soundTo_trans (k := soundTo_keeps (State.setKbd_keeps _ _) rfl)
    | with_reducible apply soundTo_trans (k := State.raiseHigh_sound _ _)
    | split

theorem State.destDone_sound (s : State) (r : SetupRoute) (d : StationCode) : soundTo s (s.destDone r d) := by
  unfold State.destDone
  try dsimp only
  repeat' first
    | with_reducible exact soundTo_refl _
    | with_reducible apply soundTo_trans (k := State.createPrepared_sound _ _)
    | with_reducible apply soundTo_trans (k := soundTo_keeps (State.setKbd_keeps _ _) rfl)
    | split

theorem State.matrixKey_sound (s : State) (p : BitVec 6) : soundTo s (s.matrixKey p) := by
  unfold State.matrixKey
  try dsimp only
  repeat' first
    | with_reducible exact soundTo_refl _
    | with_reducible apply soundTo_trans (k := soundTo_keeps (State.textKey_keeps _ _) rfl)
    | with_reducible apply soundTo_trans (k := soundTo_keeps (State.setKbd_keeps _ _) rfl)
    | with_reducible apply soundTo_trans (k := State.destDone_sound _ _ _)
    | split

theorem State.keyDown_sound (s : State) (p : BitVec 6) : soundTo s (s.keyDown p) := by
  unfold State.keyDown
  try dsimp only
  repeat' first
    | with_reducible exact soundTo_refl _
    | with_reducible apply soundTo_trans (k := State.matrixKey_sound _ _)
    | with_reducible apply soundTo_trans (k := soundTo_keeps (State.setKbd_keeps _ _) rfl)
    | split

theorem State.discardPrepared_sound (s : State) : soundTo s s.discardPrepared := by
  unfold State.discardPrepared
  try dsimp only
  repeat' first
    | with_reducible exact soundTo_refl _
    | refine soundTo_trans ?_ (State.setStore_sound _ _ fun h => Store.remove_sound h _)
    | with_reducible apply soundTo_trans (k := soundTo_keeps (State.setKbd_keeps _ _) rfl)
    | split

theorem State.cancelKey_sound (s : State) : soundTo s s.cancelKey := by
  unfold State.cancelKey
  try dsimp only
  repeat' first
    | with_reducible exact soundTo_refl _
    | with_reducible apply soundTo_trans (k := soundTo_keeps (State.cancelRequest_keeps _) rfl)
    | with_reducible apply soundTo_trans (k := State.discardPrepared_sound _)
    | with_reducible apply soundTo_trans (k := soundTo_keeps (State.setKbd_keeps _ _) rfl)
    | split

theorem State.modeSetup_sound (s : State) : soundTo s s.modeSetup := by
  unfold State.modeSetup
  try dsimp only
  repeat' first
    | with_reducible exact soundTo_refl _
    | with_reducible apply soundTo_trans (k := State.discardPrepared_sound _)
    | with_reducible apply soundTo_trans (k := soundTo_keeps (State.setupReady_keeps _) rfl)
    | with_reducible apply soundTo_trans (k := soundTo_keeps (State.setKbd_keeps _ _) rfl)
    | split

theorem State.modeChange_sound (s : State) : soundTo s s.modeChange := by
  unfold State.modeChange
  try dsimp only
  repeat' first
    | with_reducible exact soundTo_refl _
    | with_reducible apply soundTo_trans (k := State.modeSetup_sound _)
    | with_reducible apply soundTo_trans (k := soundTo_keeps (State.setKbd_keeps _ _) rfl)
    | with_reducible apply soundTo_trans (k := soundTo_keeps (State.setPunch_keeps _ _) rfl)

theorem State.writePrepared_sound (s : State) (i : Nat) (cs : List Code) : soundTo s (s.writePrepared i cs) := by
  induction cs generalizing s with
  | nil => exact soundTo_refl s
  | cons c cs ih =>
    unfold State.writePrepared
    try dsimp only
    split
    · refine soundTo_trans ?_ (ih _)
      refine soundTo_trans ?_ (State.raiseHigh_sound _ _)
      exact fun h => Store.writeCell_sound h _ _ _
    · exact fun h => Store.writeCell_sound h _ _ _

theorem State.takePrepare_sound (s : State) : soundTo s s.takePrepare := by
  unfold State.takePrepare
  try dsimp only
  repeat' first
    | with_reducible exact soundTo_refl _
    | refine soundTo_trans ?_ (State.setStore_sound _ _ fun h => Store.finishPrepared_sound h _)
    | with_reducible apply soundTo_trans (k := soundTo_keeps (State.setKbd_keeps _ _) rfl)
    | with_reducible apply soundTo_trans (k := State.writePrepared_sound _ _ _)
    | split

theorem State.grantDrain_sound (s : State) : soundTo s s.grantDrain := by
  unfold State.grantDrain
  repeat' first
    | with_reducible exact soundTo_refl _
    | split
  refine soundTo_trans (soundTo_keeps (State.setPrinter_keeps s _) rfl) (State.setStore_sound _ _ fun h => ?_)
  exact Store.modify_sound h _ _ fun e => by split <;> exact ⟨rfl, rfl⟩

theorem State.drainCell_sound (s : State) (i : Nat) : soundTo s (s.drainCell i) := by
  unfold State.drainCell
  try dsimp only
  repeat' first
    | with_reducible exact soundTo_refl _
    | refine soundTo_trans ?_ (State.setStore_sound _ _ fun h => Store.readCell_sound h _ _)

theorem State.judgePrint_sound (s : State) : soundTo s s.judgePrint := by
  unfold State.judgePrint
  try dsimp only
  repeat' first
    | with_reducible exact soundTo_refl _
    | with_reducible apply soundTo_trans (k := soundTo_keeps (State.setPrinter_keeps _ _) rfl)
    | refine soundTo_trans ?_ (State.setStore_sound _ _ fun h => Store.printed_sound h _ _)
    | refine soundTo_trans ?_ (State.setStore_sound _ _ fun h => Store.modify_sound h _ _ fun e => ⟨rfl, rfl⟩)
    | split

theorem State.drainRead_sound (s : State) : soundTo s s.drainRead := by
  unfold State.drainRead
  try dsimp only
  repeat' first
    | with_reducible exact soundTo_refl _
    | with_reducible apply soundTo_trans (k := State.drainCell_sound _ _)
    | with_reducible apply soundTo_trans (k := soundTo_keeps (State.setPrinter_keeps _ _) rfl)
    | with_reducible apply soundTo_trans (k := State.judgePrint_sound _)
    | split

theorem State.notReady_sound (s : State) : soundTo s s.notReady := by
  unfold State.notReady
  try dsimp only
  repeat' first
    | with_reducible exact soundTo_refl _
    | with_reducible apply soundTo_trans (k := State.switchDirect_sound _)
    | with_reducible apply soundTo_trans (k := soundTo_keeps (State.setPrinter_keeps _ _) rfl)
    | with_reducible apply soundTo_trans (k := State.raiseHigh_sound _ _)

theorem State.paperOut_sound (s : State) : soundTo s s.paperOut := by
  unfold State.paperOut
  try dsimp only
  repeat' first
    | with_reducible exact soundTo_refl _
    | with_reducible apply soundTo_trans (k := State.notReady_sound _)
    | with_reducible apply soundTo_trans (k := soundTo_keeps (State.setPrinter_keeps _ _) rfl)
    | with_reducible apply soundTo_trans (k := State.raiseNone_sound _ _)

theorem State.paperBack_sound (s : State) : soundTo s s.paperBack := by
  unfold State.paperBack
  try dsimp only
  repeat' first
    | with_reducible exact soundTo_refl _
    | with_reducible apply soundTo_trans (k := soundTo_keeps (State.setPrinter_keeps _ _) rfl)
    | with_reducible apply soundTo_trans (k := State.raiseNone_sound _ _)

theorem State.faultAsserted_sound (s : State) : soundTo s s.faultAsserted := by
  unfold State.faultAsserted
  try dsimp only
  repeat' first
    | with_reducible exact soundTo_refl _
    | with_reducible apply soundTo_trans (k := State.notReady_sound _)
    | with_reducible apply soundTo_trans (k := soundTo_keeps (State.setPrinter_keeps _ _) rfl)

theorem State.speedLost_sound (s : State) : soundTo s s.speedLost := by
  unfold State.speedLost
  try dsimp only
  repeat' first
    | with_reducible exact soundTo_refl _
    | with_reducible apply soundTo_trans (k := State.notReady_sound _)
    | with_reducible apply soundTo_trans (k := soundTo_keeps (State.setPrinter_keeps _ _) rfl)

theorem State.startTimeout_sound (s : State) : soundTo s s.startTimeout := by
  unfold State.startTimeout
  try dsimp only
  repeat' first
    | with_reducible exact soundTo_refl _
    | with_reducible apply soundTo_trans (k := State.notReady_sound _)
    | with_reducible apply soundTo_trans (k := soundTo_keeps (State.setPrinter_keeps _ _) rfl)

theorem State.tapeOut_sound (s : State) : soundTo s s.tapeOut := by
  unfold State.tapeOut
  try dsimp only
  repeat' first
    | with_reducible exact soundTo_refl _
    | with_reducible apply soundTo_trans (k := soundTo_keeps (State.setPunch_keeps _ _) rfl)
    | with_reducible apply soundTo_trans (k := State.raiseNone_sound _ _)
    | with_reducible apply soundTo_trans (k := soundTo_keeps (State.setTracker_keeps _ _) rfl)

theorem State.tickTimers_sound (s : State) (i : TickInputs) : soundTo s (s.tickTimers i) := by
  unfold State.tickTimers
  try dsimp only
  repeat' first
    | with_reducible exact soundTo_refl _
    | refine soundTo_trans ?_ (State.setStore_sound _ _ fun h => Store.tick_sound h)
    | with_reducible apply soundTo_trans (k := soundTo_keeps (State.setLinks_keeps _ _) rfl)
    | with_reducible apply soundTo_trans (k := soundTo_keeps (State.setPrinter_keeps _ _) rfl)
    | with_reducible apply soundTo_trans (k := soundTo_keeps (State.setKbd_keeps _ _) rfl)
    | with_reducible apply soundTo_trans (k := soundTo_keeps (State.setQuality_keeps _ _) rfl)

theorem State.tick_sound (s : State) (i : TickInputs) : soundTo s (s.tick i) := by
  unfold State.tick
  try dsimp only
  repeat' first
    | with_reducible exact soundTo_refl _
    | with_reducible apply soundTo_trans (k := State.tickTimers_sound _ _)
    | with_reducible apply soundTo_trans (k := soundTo_keeps (State.tickLocal_keeps _) rfl)
    | with_reducible apply soundTo_trans (k := soundTo_keeps (State.tickLoader_keeps _) rfl)
    | with_reducible apply soundTo_trans (k := soundTo_keeps (State.tickScan_keeps _ _ _) rfl)
    | with_reducible apply soundTo_trans (k := soundTo_keeps (State.tickWatch_keeps _) rfl)
    | split

theorem State.beginReset_sound (s : State) (cause : ResetCause) : soundTo s (s.beginReset cause) :=
  Store.afterReset_sound

theorem State.resetPin_sound (s : State) : soundTo s s.resetPin := by
  unfold State.resetPin
  try dsimp only
  repeat' first
    | with_reducible exact soundTo_refl _
    | with_reducible apply soundTo_trans (k := State.beginReset_sound _ _)
    | split

theorem State.txnEnd_sound (s : State) (errSince : Bool) (e : TxnEffect) : soundTo s (s.txnEnd errSince e) := by
  unfold State.txnEnd
  try dsimp only
  repeat' first
    | with_reducible exact soundTo_refl _
    | with_reducible apply soundTo_trans (k := soundTo_keeps (State.setPort_keeps _ _) rfl)
    | with_reducible apply soundTo_trans (k := soundTo_keeps (State.setQuality_keeps _ _) rfl)
    | with_reducible apply soundTo_trans (k := State.beginReset_sound _ _)
    | split

theorem State.selectRises_sound (s : State) : soundTo s s.selectRises := by
  unfold State.selectRises
  try dsimp only
  repeat' first
    | with_reducible exact soundTo_refl _
    | with_reducible apply soundTo_trans (k := soundTo_keeps (State.setPort_keeps _ _) rfl)
    | with_reducible apply soundTo_trans (k := State.txnEnd_sound _ _ _)
    | split

theorem State.command_sound (s : State) (ok : Bool) (f : Txn → State) (hf : ∀ x, soundTo s (f x)) :
    soundTo s (s.command ok f) := by
  unfold State.command
  split
  · exact soundTo_refl _
  · split
    · exact soundTo_keeps (State.putTxn_keeps _ _) rfl
    · exact hf _

theorem State.portText_sound (s : State) (idx : Byte) (off : BitVec 16) (count : Byte) :
    soundTo s (s.portText idx off count) := by
  unfold State.portText
  exact State.command_sound s _ _ fun x => soundTo_trans
    (State.setStore_sound s _ fun h => Store.readText_sound _ _ _ _ h) (soundTo_keeps (State.putTxn_keeps _ _) rfl)

theorem State.deleteEntry_sound (s : State) (i : Nat) : soundTo s (s.deleteEntry i).1 := by
  unfold State.deleteEntry
  try dsimp only
  repeat' first
    | with_reducible exact soundTo_refl _
    | refine soundTo_trans ?_ (State.setStore_sound _ _ fun h => Store.remove_sound h _)
    | with_reducible apply soundTo_trans (k := soundTo_keeps (State.loseDrainOf_keeps _ _) rfl)
    | split

theorem State.keepEntry_sound (s : State) (i : Nat) : soundTo s (s.keepEntry i).1 := by
  unfold State.keepEntry
  split
  · exact soundTo_refl _
  · exact State.setStore_sound _ _ fun h => Store.modify_sound h _ _ fun e => ⟨rfl, rfl⟩

theorem State.releaseEntry_sound (s : State) (i : Nat) : soundTo s (s.releaseEntry i).1 := by
  unfold State.releaseEntry
  try dsimp only
  repeat' first
    | with_reducible exact soundTo_refl _
    | refine soundTo_trans ?_ (State.setStore_sound _ _ fun h => Store.release_sound h _ _)
    | split

end Sys2Proof.Machine
end

