-- ==== Sys2Proof/Laws/Events.lean ====
section
/-! SUPPORT. The taking of the events raised in a step (R172 to R174): what it does with none and with one, what holds of
it in every order, and which steps raise no event that belongs to a held call; and a BELL's copy at the punch (R118). -/

namespace Sys2Proof.Machine

open Sys2Proof.Safety

/-! ### The BELL at the punch -/

/-- R118: what `State.bellText` can do: event 4 alone where the call does not own the punch; else the code punched and the
event raised, or the event raised with the code to be taken after it. -/
theorem State.bellText_cases (s : State) (c : Code) :
    (s.punch.ownedByCall s.callSerial = false ∧ s.bellText c = s.raise 4 (some s.callSerial)) ∨
      (s.punch.ownedByCall s.callSerial = true ∧
        let t := s.setLinks { s.links with choices := s.links.choices + 1 }
        (s.bellText c = (t.punchCode c).raise 4 (some s.callSerial) ∨
          s.bellText c = t.raiseEvent ⟨4, some s.callSerial, some c⟩)) := by
  unfold State.bellText
  cases h : s.punch.ownedByCall s.callSerial
  · exact Or.inl ⟨rfl, rfl⟩
  · refine Or.inr ⟨rfl, ?_⟩
    dsimp only
    rw [if_pos rfl]
    split
    · exact Or.inl rfl
    · exact Or.inr rfl

/-- R118: an event with a late code is the event without it, and then the code. -/
theorem State.takeEvent_late (s : State) (d : Unseen) (ev : BitVec 4) (serial : Option Nat) (late : Option Code) :
    s.takeEvent d ⟨ev, serial, late⟩ = (s.takeEvent d ⟨ev, serial, none⟩).lateCode ⟨ev, serial, late⟩ := rfl

/-! ### What has reached the matrix -/

/-- With nothing unseen, a condition is tested on the state as it stands. -/
@[simp] theorem State.condSeen_nothing (s : State) (c : BitVec 4) : s.condSeen ⟨0, none⟩ c = s.condHolds c := by
  unfold State.condSeen
  split
  · rename_i h
    subst h
    simp [State.condHolds]
  · rfl

/-- With PAPER OUT as the matrix knows it, every condition but STORE-ROOM is tested on the state as it stands. -/
theorem State.condSeen_other (s : State) (d : Int) {c : BitVec 4} (h : c ≠ 12) :
    s.condSeen ⟨d, none⟩ c = s.condHolds c := if_neg h

/-- R174: PAPER and NO-PAPER before a change of PAPER OUT that is still to come. -/
theorem State.condSeen_paper (s : State) (d : Int) (b : Bool) :
    s.condSeen ⟨d, some b⟩ 3 = !b ∧ s.condSeen ⟨d, some b⟩ 4 = b := ⟨rfl, rfl⟩

@[simp] theorem roomChange_self (n : Nat) : roomChange n n = [] := if_pos rfl

theorem mem_roomChange {a : Arrival} {n m : Nat} (h : a ∈ roomChange n m) : a = .room (m - n) := by
  unfold roomChange at h
  split at h
  · cases h
  · exact List.mem_singleton.1 h

/-- What arrives with one event raised: the event, once, and no other. -/
theorem Raised.mem_arrive {e : Event} {d : Int} {n : Nat} {r : Raised} (h : Arrival.event e d ∈ r.arrive n) :
    r.event = e := by
  unfold Raised.arrive at h
  split at h
  · cases List.mem_singleton.1 h; rfl
  · rcases List.mem_append.1 h with h | h
    · cases mem_roomChange h
    · cases List.mem_singleton.1 h; rfl

theorem mem_arrivals {e : Event} {d : Int} {n m : Nat} {rs : List Raised} (h : Arrival.event e d ∈ arrivals n rs m) :
    ∃ r ∈ rs, r.event = e := by
  induction rs generalizing n with
  | nil => cases mem_roomChange h
  | cons r rs ih =>
    rcases List.mem_append.1 h with h | h
    · exact ⟨r, List.mem_cons_self .., Raised.mem_arrive h⟩
    · obtain ⟨x, hx, he⟩ := ih h
      exact ⟨x, List.mem_cons_of_mem _ hx, he⟩

/-! ### The order in which it is taken -/

theorem takenFirst_mem {a : Arrival} {past as : List Arrival} (h : a ∈ takenFirst past as) : a ∈ as := by
  induction as generalizing past with
  | nil => exact h
  | cons x xs ih =>
    unfold takenFirst at h
    split at h
    · exact List.mem_cons_of_mem _ (ih h)
    · rcases List.mem_cons.1 h with rfl | h
      · exact List.mem_cons_self ..
      · exact List.mem_cons_of_mem _ (ih h)

/-- Of several arrivals there is one that may be taken first. -/
theorem takenFirst_cons (a : Arrival) (as : List Arrival) : ∃ rest, takenFirst [] (a :: as) = a :: rest := ⟨_, rfl⟩

@[simp] theorem takenOrder_nil (n c : Nat) : takenOrder n c [] = ([], c) := by cases n <;> rfl

@[simp] theorem takenOrder_one (n c : Nat) (a : Arrival) : takenOrder (n + 1) c [a] = ([a], c) := by
  simp [takenOrder, takenFirst]

/-- Everything that arrives is taken, once. -/
theorem takenOrder_perm (n c : Nat) (as : List Arrival) (h : as.length ≤ n) : (takenOrder n c as).1.Perm as := by
  induction n generalizing c as with
  | zero => rw [List.length_eq_zero_iff.1 (Nat.le_zero.1 h)]; exact List.Perm.refl _
  | succ n ih =>
    have next (x : Arrival) (c : Nat) (hx : x ∈ as) : (x :: (takenOrder n c (as.erase x)).1).Perm as := by
      refine ((ih c _ ?_).cons x).trans (List.perm_cons_erase hx).symm
      rw [List.length_erase_of_mem hx]; omega
    unfold takenOrder
    split
    · rename_i h0
      cases as with
      | nil => exact List.Perm.refl _
      | cons a as => obtain ⟨r, hr⟩ := takenFirst_cons a as; rw [hr] at h0; cases h0
    · rename_i a ha
      exact next a c (takenFirst_mem (ha ▸ List.mem_cons_self ..))
    · rename_i a a' rest hr
      dsimp only
      refine next _ (c + 1) (takenFirst_mem (past := []) ?_)
      rw [hr]
      have k : Config.eventFirst c % (rest.length + 2) < (a :: a' :: rest).length := Nat.mod_lt _ (Nat.succ_pos _)
      rw [List.getD_eq_getElem (hn := k)]
      exact List.getElem_mem k

/-! ### Taking it -/

@[simp] theorem State.takeInOrder_nil (s : State) : s.takeInOrder [] = s := rfl
@[simp] theorem State.takeInOrder_event (s : State) (e : Event) (d : Int) (as : List Arrival) :
    s.takeInOrder (.event e d :: as) = (s.takeEvent (unseenOf as) e).takeInOrder as := rfl
@[simp] theorem State.takeInOrder_room (s : State) (d : Int) (as : List Arrival) :
    s.takeInOrder (.room d :: as) = s.takeInOrder as := rfl

/-- What holds of the taking of each event, whatever has reached the matrix by then, holds of the taking of all. -/
theorem State.takeInOrder_rel (P : State → State → Prop) (refl : ∀ s, P s s)
    (trans : ∀ {s t u}, P s t → P t u → P s u) (as : List Arrival)
    (event : ∀ e x, .event e x ∈ as → ∀ (s : State) (d : Unseen), P s (s.takeEvent d e)) (s : State) :
    P s (s.takeInOrder as) := by
  induction as generalizing s with
  | nil => exact refl s
  | cons a as ih =>
    have sub : ∀ e x, .event e x ∈ as → ∀ (s : State) (d : Unseen), P s (s.takeEvent d e) :=
      fun e x h => event e x (List.mem_cons_of_mem _ h)
    cases a with
    | event e x => exact trans (event e x (List.mem_cons_self ..) s _) (ih sub _)
    | room d => exact ih sub s

/-- What holds of the taking of each event that a step raised, and of the model's own fields of the matrix, holds of the
taking of all. -/
theorem State.takeRaised_rel (P : State → State → Prop) (refl : ∀ s, P s s)
    (trans : ∀ {s t u}, P s t → P t u → P s u)
    (matrix : ∀ (s : State) (l : Links), P s (s.setLinks { s.links with raised := l.raised, choices := l.choices }))
    (s : State) (event : ∀ r ∈ s.links.raised, ∀ (u : State) (d : Unseen), P u (u.takeEvent d r.event)) (n : Nat)
    (kept : List Raised) : P s (s.takeRaised n kept) := by
  unfold State.takeRaised
  refine trans (matrix s { s.links with raised := kept, choices := _ })
    (State.takeInOrder_rel P refl trans _ (fun e _ he => ?_) _)
  obtain ⟨r, hr, rfl⟩ := mem_arrivals ((takenOrder_perm _ _ _ (Nat.le_refl _)).mem_iff.1 he)
  exact event r hr

/-- What the taking of events can change. -/
theorem State.takeRaised_keeps (s : State) (n : Nat) (kept : List Raised) :
    keeps [.liu, .tracker, .printer, .punch, .store, .answer, .links] s (s.takeRaised n kept) :=
  State.takeRaised_rel _ (keeps_refl _) keeps_trans (fun s _ => keeps_mono (State.setLinks_keeps s _) rfl) s
    (fun r _ u d => u.takeEvent_keeps d r.event) n kept

/-- What the taking of events can change whose actions are for no call. -/
theorem State.takeRaisedNone_keeps (s : State) (h : ∀ r ∈ s.links.raised, r.event.call = none) (n : Nat)
    (kept : List Raised) : keeps eventBlocks s (s.takeRaised n kept) :=
  State.takeRaised_rel _ (keeps_refl _) keeps_trans (fun s _ => keeps_mono (State.setLinks_keeps s _) rfl) s
    (fun r hr u d => u.takeEventNone_keeps d r.event (h r hr)) n kept

theorem State.takeRaised_stirred (s : State) (h : ∀ r ∈ s.links.raised, r.event.call = none) (n : Nat)
    (kept : List Raised) : Stirred s (s.takeRaised n kept) :=
  State.takeRaised_rel Stirred Stirred.refl Stirred.trans
    (fun s _ => ⟨keeps_mono (State.setLinks_keeps s _) rfl, rfl, rfl, rfl⟩) s
    (fun r hr u d => u.takeEvent_stirred d r.event (by rw [h r hr]; exact u.holdsCall_none)) n kept

theorem State.takeRaised_burst (s : State) (n : Nat) (kept : List Raised) : burstOnly s (s.takeRaised n kept) :=
  State.takeRaised_rel _ burstOnly_refl burstOnly_trans (fun s _ => burstOnly_keeps (State.setLinks_keeps s _) rfl) s
    (fun r _ u d => u.takeEvent_burst d r.event) n kept

theorem State.takeRaised_noCall (s : State) (n : Nat) (kept : List Raised) : noCallTo s (s.takeRaised n kept) :=
  State.takeRaised_rel _ noCallTo_refl noCallTo_trans (fun s _ => noCallTo_keeps (State.setLinks_keeps s _) rfl) s
    (fun r _ u d => u.takeEvent_noCall d r.event) n kept

theorem State.takeRaised_sound (s : State) (n : Nat) (kept : List Raised) : soundTo s (s.takeRaised n kept) :=
  State.takeRaised_rel _ soundTo_refl soundTo_trans (fun s _ => soundTo_keeps (State.setLinks_keeps s _) rfl) s
    (fun r _ u d => u.takeEvent_sound d r.event) n kept

/-! ### Steps that raise events -/

/-- A step that raised no event, whatever it did to the free count. -/
theorem State.takeRaised_nil (s : State) (n : Nat) (kept : List Raised) (h : s.links.raised = []) :
    s.takeRaised n kept = s.setLinks { s.links with raised := kept } := by
  unfold State.takeRaised
  rw [h]
  unfold arrivals roomChange
  split <;> simp [State.setLinks]

/-- A step that raised one event and did not change the free count. -/
theorem State.takeRaised_one (s : State) (kept : List Raised) (e : Event) (h : s.links.raised = [⟨e, s.store.free.length⟩]) :
    s.takeRaised s.store.free.length kept = (s.setLinks { s.links with raised := kept }).takeEvent ⟨0, none⟩ e := by
  unfold State.takeRaised
  rw [h]
  have h1 : arrivals s.store.free.length [⟨e, s.store.free.length⟩] s.store.free.length = [.event e 0] := by
    simp [arrivals, Raised.arrive]
  simp [h1, unseenOf]

/-- R174: PAPER-OUT, and the STORE-HIGH of the switch-over in its step, are taken in either order. Taken first, PAPER-OUT
finds the free count as it was, and STORE-HIGH finds PAPER OUT as it was. -/
theorem State.takeRaised_paperHigh (s : State) (n : Nat) (kept : List Raised)
    (h : s.links.raised = [⟨⟨6, none, none⟩, n⟩, ⟨⟨13, none, none⟩, s.store.free.length⟩]) :
    let u := s.setLinks { s.links with raised := kept, choices := s.links.choices + 1 }
    s.takeRaised n kept =
        (u.takeEvent ⟨s.store.free.length - n, none⟩ ⟨6, none, none⟩).takeEvent ⟨0, none⟩ ⟨13, none, none⟩ ∨
      s.takeRaised n kept = (u.takeEvent ⟨0, some false⟩ ⟨13, none, none⟩).takeEvent ⟨0, none⟩ ⟨6, none, none⟩ := by
  unfold State.takeRaised
  rw [h]
  have h1 : arrivals n [⟨⟨6, none, none⟩, n⟩, ⟨⟨13, none, none⟩, s.store.free.length⟩] s.store.free.length =
      [.event ⟨6, none, none⟩ 0, .event ⟨13, none, none⟩ (s.store.free.length - n)] := by
    simp [arrivals, Raised.arrive]
  have h2 (x : Int) : takenFirst [] [.event ⟨6, none, none⟩ 0, .event ⟨13, none, none⟩ x] =
      [.event ⟨6, none, none⟩ 0, .event ⟨13, none, none⟩ x] := by
    simp [takenFirst, Arrival.before, Arrival.block, Event.block]
  simp only [h1, takenOrder, h2, List.length_nil, Nat.zero_add, List.length_cons]
  rcases Nat.mod_two_eq_zero_or_one (Config.eventFirst s.links.choices) with e | e
  · left; simp [e, takenFirst, unseenOf, Event.paperBefore]
  · right; simp [e, takenFirst, unseenOf, Event.paperBefore]

/-- R123, R172: the steps that change a tape input raise its own event alone. -/
theorem State.tapeEvents_alone (s : State) :
    ((s.setPunch { s.punch with low := s.punch.low.change }).raise 8 none).links.raised =
        s.links.raised ++ [⟨⟨8, none, none⟩, s.store.free.length⟩] ∧
      s.tapeOut.links.raised = s.links.raised ++ [⟨⟨9, none, none⟩, s.store.free.length⟩] := ⟨rfl, rfl⟩

/-- R37, R172: the step that changes LQ raises one event at most. -/
theorem State.flagChange_alone (s : State) :
    ∃ es, s.flagChange.links.raised = s.links.raised ++ es ∧ es.length ≤ 1 := by
  have m (u : State) : u.markDoubtful.links = u.links := u.markDoubtful_keeps .links (by decide)
  unfold State.flagChange
  dsimp only
  split
  · exact ⟨[], (List.append_nil _).symm, Nat.zero_le 1⟩
  · split
    · exact ⟨[_], congrArg (· ++ [_]) (congrArg Links.raised (m _)), Nat.le_refl 1⟩
    · exact ⟨[_], rfl, Nat.le_refl 1⟩

/-- The frame of a step and of the events that it raised. -/
theorem State.thenEvents_keeps {bs : List Block} (f : State → State) (hf : ∀ u, keeps bs u (f u))
    (d : Block.within [.liu, .tracker, .printer, .punch, .store, .answer, .links] bs = true) (s : State) :
    keeps bs s (State.thenEvents f s) := by
  have l (u : State) (x : Links) : keeps bs u (u.setLinks x) :=
    keeps_mono (keeps_mono (State.setLinks_keeps u x) rfl) d
  exact keeps_step (keeps_trans (l s _) (hf _)) (State.takeRaised_keeps _ _ _) d

/-- The events that a step raises besides those raised before it belong to no held call (R176). -/
def quiet (s t : State) : Prop := ∀ r ∈ t.links.raised, r ∈ s.links.raised ∨ r.event.call = none

theorem quiet_refl (s : State) : quiet s s := fun _ h => Or.inl h

theorem quiet_trans {s t u : State} (h : quiet s t) (k : quiet t u) : quiet s u :=
  fun e he => (k e he).elim (h e) Or.inr

/-- An operation that keeps the matrix. -/
theorem quiet_keeps {as : List Block} {s t : State} (k : keeps as s t) (d : as.contains .links = false) : quiet s t := by
  intro e he
  rw [show t.links = s.links from k .links (by simpa using d)] at he
  exact Or.inl he

/-- The frame of a step whose events belong to no held call. -/
theorem State.thenEvents_quiet {bs : List Block} (f : State → State) (hf : ∀ u, keeps bs u (f u))
    (hq : ∀ u, quiet u (f u)) (d : Block.within eventBlocks bs = true) (s : State) :
    keeps bs s (State.thenEvents f s) := by
  have l (u : State) (x : Links) : keeps bs u (u.setLinks x) :=
    keeps_mono (keeps_mono (State.setLinks_keeps u x) rfl : keeps eventBlocks u (u.setLinks x)) d
  refine keeps_step (keeps_trans (l s _) (hf _)) (State.takeRaisedNone_keeps _ ?_ _ _) d
  intro e he
  rcases hq _ e he with h | h
  · exact absurd h List.not_mem_nil
  · exact h

theorem Event.call_none (ev : BitVec 4) : (Event.mk ev none none).call = none := by unfold Event.call; split <;> rfl

theorem State.raiseNone_quiet (s : State) (ev : BitVec 4) : quiet s (s.raise ev none) := by
  intro e he
  rcases List.mem_append.1 he with h | h
  · exact Or.inl h
  · rw [List.mem_singleton.1 h]
    exact Or.inr (Event.call_none ev)

/-- R176: CALL-END, whose call has ended. -/
theorem State.raiseEnd_quiet (s : State) (serial : Option Nat) : quiet s (s.raise 3 serial) := by
  intro e he
  rcases List.mem_append.1 he with h | h
  · exact Or.inl h
  · rw [List.mem_singleton.1 h]
    exact Or.inr rfl

theorem State.raiseHigh_quiet (s : State) (allocated : Bool) : quiet s (s.raiseHigh allocated) := by
  unfold State.raiseHigh
  split
  · exact s.raiseNone_quiet 13
  · exact quiet_refl s

theorem State.settleEntry_quiet (s : State) (i : Nat) (o : CallOutcome) : quiet s (s.settleEntry i o) := by
  unfold State.settleEntry
  try dsimp only
  repeat' first
    | with_reducible exact quiet_refl _
    | with_reducible apply quiet_trans (k := quiet_keeps (State.setStore_keeps _ _) rfl)
    | with_reducible apply quiet_trans (k := State.raiseNone_quiet _ _)
    | split

theorem State.endCollection_quiet (s : State) (c : Collection) : quiet s (s.endCollection c) := by
  unfold State.endCollection
  try dsimp only
  repeat' first
    | with_reducible exact quiet_refl _
    | with_reducible apply quiet_trans (k := quiet_keeps (State.setAnswer_keeps _ _) rfl)
    | with_reducible apply quiet_trans (k := State.raiseNone_quiet _ _)
    | split

theorem State.deliverEnd_quiet (s : State) (r : JobResult) : quiet s (s.deliverEnd r) := by
  unfold State.deliverEnd
  try dsimp only
  repeat' first
    | with_reducible exact quiet_refl _
    | with_reducible apply quiet_trans (k := quiet_keeps (State.setAnswer_keeps _ _) rfl)
    | with_reducible apply quiet_trans (k := State.endCollection_quiet _ _)
    | with_reducible apply quiet_trans (k := quiet_keeps (State.deliveryResult_keeps _ _ _) rfl)
    | split

theorem State.jobEnd_quiet (s : State) (j : Job) (r : JobResult) : quiet s (s.jobEnd j r) := by
  unfold State.jobEnd
  try dsimp only
  repeat' first
    | with_reducible exact quiet_refl _
    | with_reducible apply quiet_trans (k := State.settleEntry_quiet _ _ _)
    | with_reducible apply quiet_trans (k := quiet_keeps (State.setKbd_keeps _ _) rfl)
    | with_reducible apply quiet_trans (k := State.deliverEnd_quiet _ _)
    | split

theorem State.finishJob_quiet (s : State) (r : JobResult) : quiet s (s.finishJob r) := by
  unfold State.finishJob
  try dsimp only
  repeat' first
    | with_reducible exact quiet_refl _
    | with_reducible apply quiet_trans (k := quiet_keeps (State.emptySlot_keeps _) rfl)
    | with_reducible apply quiet_trans (k := State.jobEnd_quiet _ _ _)
    | split

theorem State.returnJob_quiet (s : State) : quiet s s.returnJob := by
  unfold State.returnJob
  try dsimp only
  repeat' first
    | with_reducible exact quiet_refl _
    | with_reducible apply quiet_trans (k := State.finishJob_quiet _ _)
    | with_reducible apply quiet_trans (k := quiet_keeps (State.setStore_keeps _ _) rfl)
    | with_reducible apply quiet_trans (k := quiet_keeps (State.setKbd_keeps _ _) rfl)
    | with_reducible apply quiet_trans (k := quiet_keeps (State.emptySlot_keeps _) rfl)
    | split

theorem State.giveObligation_quiet (s : State) (j : Job) : quiet s (s.giveObligation j) := by
  unfold State.giveObligation
  try dsimp only
  repeat' first
    | with_reducible exact quiet_refl _
    | with_reducible apply quiet_trans (k := State.returnJob_quiet _)
    | with_reducible apply quiet_trans (k := quiet_keeps (State.setSender_keeps _ _) rfl)
    | with_reducible apply quiet_trans (k := quiet_keeps (State.takeObligation_keeps _ _) rfl)
    | split

theorem State.lapsePending_quiet (s : State) : quiet s s.lapsePending := by
  unfold State.lapsePending
  try dsimp only
  repeat' first
    | with_reducible exact quiet_refl _
    | with_reducible apply quiet_trans (k := quiet_keeps (State.setSender_keeps _ _) rfl)
    | with_reducible apply quiet_trans (k := State.jobEnd_quiet _ _ _)
    | split

theorem State.collectionCallEnd_quiet (s : State) (serial : Nat) : quiet s (s.collectionCallEnd serial) := by
  unfold State.collectionCallEnd
  try dsimp only
  repeat' first
    | with_reducible exact quiet_refl _
    | with_reducible apply quiet_trans (k := State.endCollection_quiet _ _)
    | with_reducible apply quiet_trans (k := quiet_keeps (State.setAnswer_keeps _ _) rfl)
    | split

theorem State.callerCallEnd_quiet (s : State) (serial : Nat) (o : CallOutcome) : quiet s (s.callerCallEnd serial o) := by
  unfold State.callerCallEnd
  try dsimp only
  repeat' first
    | with_reducible exact quiet_refl _
    | with_reducible apply quiet_trans (k := State.finishJob_quiet _ _)
    | with_reducible apply quiet_trans (k := quiet_keeps (State.setSender_keeps _ _) rfl)
    | with_reducible apply quiet_trans (k := quiet_keeps (State.setKbd_keeps _ _) rfl)
    | split

theorem State.endCall_quiet (s : State) (o : CallOutcome) : quiet s (s.endCall o) := by
  unfold State.endCall
  try dsimp only
  repeat' first
    | with_reducible exact quiet_refl _
    | with_reducible apply quiet_trans (k := State.settleEntry_quiet _ _ _)
    | with_reducible apply quiet_trans (k := State.callerCallEnd_quiet _ _ _)
    | with_reducible apply quiet_trans (k := quiet_keeps (State.setStore_keeps _ _) rfl)
    | with_reducible apply quiet_trans (k := State.collectionCallEnd_quiet _ _)
    | with_reducible apply quiet_trans (k := quiet_keeps (State.setPrinter_keeps _ _) rfl)
    | with_reducible apply quiet_trans (k := quiet_keeps (State.endDeliver_keeps _ _) rfl)
    | with_reducible apply quiet_trans (k := quiet_keeps (State.setAnswer_keeps _ _) rfl)
    | with_reducible apply quiet_trans (k := quiet_keeps (State.setPunch_keeps _ _) rfl)
    | with_reducible apply quiet_trans (k := State.raiseEnd_quiet _ _)
    | with_reducible apply quiet_trans (k := quiet_keeps (State.setTracker_keeps _ _) rfl)
    | split

theorem State.endCallR63_quiet (s : State) : quiet s s.endCallR63 := by
  unfold State.endCallR63
  try dsimp only
  repeat' first
    | with_reducible exact quiet_refl _
    | with_reducible apply quiet_trans (k := State.endCall_quiet _ _)
    | split

theorem State.askStart_quiet (s : State) : quiet s s.askStart := by
  unfold State.askStart
  try dsimp only
  repeat' first
    | with_reducible exact quiet_refl _
    | with_reducible apply quiet_trans (k := quiet_keeps (State.startSending_keeps _ _) rfl)
    | with_reducible apply quiet_trans (k := State.returnJob_quiet _)
    | split

theorem State.sendingSent_quiet (s : State) : quiet s s.sendingSent := by
  unfold State.sendingSent
  try dsimp only
  repeat' first
    | with_reducible exact quiet_refl _
    | with_reducible apply quiet_trans (k := State.finishJob_quiet _ _)
    | with_reducible apply quiet_trans (k := quiet_keeps (State.setLiu_keeps _ _) rfl)

theorem State.handText_quiet (s : State) : quiet s s.handText := by
  unfold State.handText State.handList
  repeat' first
    | with_reducible apply quiet_trans (k := State.sendingSent_quiet _)
    | with_reducible apply quiet_trans (k := quiet_keeps (State.handCode_keeps _ _ _) rfl)
    | with_reducible apply quiet_trans (k := quiet_keeps (State.handHold_keeps _) rfl)
    | with_reducible apply quiet_trans (k := quiet_keeps (State.handKeyboard_keeps _) rfl)
    | with_reducible apply quiet_trans (k := quiet_keeps (State.handCell_keeps _ _) rfl)
    | with_reducible apply quiet_trans (k := quiet_keeps (State.enterStopping_keeps _) rfl)
    | with_reducible apply quiet_trans (k := quiet_keeps (State.setSender_keeps _ _) rfl)
    | with_reducible exact quiet_refl _
    | split

theorem State.enterSendText_quiet (s : State) : quiet s s.enterSendText := by
  unfold State.enterSendText
  try dsimp only
  repeat' first
    | with_reducible exact quiet_refl _
    | with_reducible apply quiet_trans (k := State.handText_quiet _)
    | with_reducible apply quiet_trans (k := quiet_keeps (State.setSender_keeps _ _) rfl)

theorem State.checkHeader_quiet (s : State) : quiet s s.checkHeader := by
  unfold State.checkHeader
  try dsimp only
  repeat' first
    | with_reducible exact quiet_refl _
    | with_reducible apply quiet_trans (k := State.finishJob_quiet _ _)
    | with_reducible apply quiet_trans (k := quiet_keeps (State.setLiu_keeps _ _) rfl)
    | with_reducible apply quiet_trans (k := State.enterSendText_quiet _)
    | with_reducible apply quiet_trans (k := quiet_keeps (State.setSender_keeps _ _) rfl)
    | with_reducible apply quiet_trans (k := quiet_keeps (State.recontend_keeps _) rfl)
    | with_reducible apply quiet_trans (k := quiet_keeps (State.handHold_keeps _) rfl)
    | split

theorem State.holdEnded_quiet (s : State) : quiet s s.holdEnded := by
  unfold State.holdEnded
  try dsimp only
  repeat' first
    | with_reducible exact quiet_refl _
    | with_reducible apply quiet_trans (k := State.handText_quiet _)
    | with_reducible apply quiet_trans (k := quiet_keeps (State.setSender_keeps _ _) rfl)
    | split

theorem State.handNext_quiet (s : State) (hold : Bool) : quiet s (s.handNext hold) := by
  unfold State.handNext
  try dsimp only
  repeat' first
    | with_reducible exact quiet_refl _
    | with_reducible apply quiet_trans (k := State.checkHeader_quiet _)
    | with_reducible apply quiet_trans (k := quiet_keeps (State.setSender_keeps _ _) rfl)
    | with_reducible apply quiet_trans (k := quiet_keeps (State.enterYield_keeps _) rfl)
    | with_reducible apply quiet_trans (k := State.sendingSent_quiet _)
    | with_reducible apply quiet_trans (k := State.handText_quiet _)
    | with_reducible apply quiet_trans (k := quiet_keeps (State.handCode_keeps _ _ _) rfl)
    | with_reducible apply quiet_trans (k := quiet_keeps (State.handHeader_keeps _ _ _) rfl)
    | with_reducible apply quiet_trans (k := quiet_keeps (State.setLiu_keeps _ _) rfl)
    | with_reducible apply quiet_trans (k := State.enterSendText_quiet _)
    | with_reducible apply quiet_trans (k := quiet_keeps (State.enterHeader_keeps _) rfl)
    | with_reducible apply quiet_trans (k := State.holdEnded_quiet _)
    | with_reducible apply quiet_trans (k := quiet_keeps (State.handHold_keeps _) rfl)
    | split

theorem State.elementEnd_quiet (s : State) : quiet s s.elementEnd := by
  unfold State.elementEnd
  try dsimp only
  repeat' first
    | with_reducible exact quiet_refl _
    | with_reducible apply quiet_trans (k := quiet_keeps (State.ownHold_keeps _) rfl)
    | with_reducible apply quiet_trans (k := quiet_keeps (State.setLiu_keeps _ _) rfl)
    | with_reducible apply quiet_trans (k := State.handNext_quiet _ _)
    | split

theorem State.classifyWatch_quiet (s : State) : quiet s s.classifyWatch := by
  unfold State.classifyWatch
  try dsimp only
  repeat' first
    | with_reducible exact quiet_refl _
    | with_reducible apply quiet_trans (k := State.finishJob_quiet _ _)
    | with_reducible apply quiet_trans (k := quiet_keeps (State.recontend_keeps _) rfl)
    | with_reducible apply quiet_trans (k := State.endCall_quiet _ _)
    | split

theorem State.createPrepared_quiet (s : State) (d : StationCode) : quiet s (s.createPrepared d) := by
  unfold State.createPrepared
  try dsimp only
  repeat' first
    | with_reducible exact quiet_refl _
    | with_reducible apply quiet_trans (k := quiet_keeps (State.setStore_keeps _ _) rfl)
    | with_reducible apply quiet_trans (k := quiet_keeps (State.setKbd_keeps _ _) rfl)
    | with_reducible apply quiet_trans (k := State.raiseHigh_quiet _ _)
    | split

theorem State.destDone_quiet (s : State) (r : SetupRoute) (d : StationCode) : quiet s (s.destDone r d) := by
  unfold State.destDone
  try dsimp only
  repeat' first
    | with_reducible exact quiet_refl _
    | with_reducible apply quiet_trans (k := State.createPrepared_quiet _ _)
    | with_reducible apply quiet_trans (k := quiet_keeps (State.setKbd_keeps _ _) rfl)
    | split

theorem State.matrixKey_quiet (s : State) (p : BitVec 6) : quiet s (s.matrixKey p) := by
  unfold State.matrixKey
  try dsimp only
  repeat' first
    | with_reducible exact quiet_refl _
    | with_reducible apply quiet_trans (k := quiet_keeps (State.textKey_keeps _ _) rfl)
    | with_reducible apply quiet_trans (k := quiet_keeps (State.setKbd_keeps _ _) rfl)
    | with_reducible apply quiet_trans (k := State.destDone_quiet _ _ _)
    | split

theorem State.keyDown_quiet (s : State) (p : BitVec 6) : quiet s (s.keyDown p) := by
  unfold State.keyDown
  try dsimp only
  repeat' first
    | with_reducible exact quiet_refl _
    | with_reducible apply quiet_trans (k := State.matrixKey_quiet _ _)
    | with_reducible apply quiet_trans (k := quiet_keeps (State.setKbd_keeps _ _) rfl)
    | split

theorem State.writePrepared_quiet (s : State) (i : Nat) (cs : List Code) : quiet s (s.writePrepared i cs) := by
  induction cs generalizing s with
  | nil => exact quiet_refl s
  | cons c cs ih =>
    unfold State.writePrepared
    try dsimp only
    split
    · refine quiet_trans ?_ (ih _)
      exact quiet_trans (quiet_keeps (keeps_step (keeps_mono (State.setStore_keeps _ _) rfl)
        (State.setKbd_keeps _ _) rfl : keeps [.kbd, .store] _ _) rfl) (State.raiseHigh_quiet _ _)
    · exact quiet_keeps (keeps_step (keeps_mono (State.setStore_keeps _ _) rfl)
        (State.setKbd_keeps _ _) rfl : keeps [.kbd, .store] _ _) rfl

theorem State.takePrepare_quiet (s : State) : quiet s s.takePrepare := by
  unfold State.takePrepare
  try dsimp only
  repeat' first
    | with_reducible exact quiet_refl _
    | with_reducible apply quiet_trans (k := quiet_keeps (State.setStore_keeps _ _) rfl)
    | with_reducible apply quiet_trans (k := quiet_keeps (State.setKbd_keeps _ _) rfl)
    | with_reducible apply quiet_trans (k := State.writePrepared_quiet _ _ _)
    | split

theorem State.notReady_quiet (s : State) : quiet s s.notReady := by
  unfold State.notReady
  try dsimp only
  repeat' first
    | with_reducible exact quiet_refl _
    | with_reducible apply quiet_trans (k := quiet_keeps (State.switchDirect_keeps _) rfl)
    | with_reducible apply quiet_trans (k := quiet_keeps (State.setPrinter_keeps _ _) rfl)
    | with_reducible apply quiet_trans (k := State.raiseHigh_quiet _ _)

theorem State.paperOut_quiet (s : State) : quiet s s.paperOut := by
  unfold State.paperOut
  try dsimp only
  repeat' first
    | with_reducible exact quiet_refl _
    | with_reducible apply quiet_trans (k := State.notReady_quiet _)
    | with_reducible apply quiet_trans (k := quiet_keeps (State.setPrinter_keeps _ _) rfl)
    | with_reducible apply quiet_trans (k := State.raiseNone_quiet _ _)

theorem State.paperBack_quiet (s : State) : quiet s s.paperBack := by
  unfold State.paperBack
  try dsimp only
  repeat' first
    | with_reducible exact quiet_refl _
    | with_reducible apply quiet_trans (k := quiet_keeps (State.setPrinter_keeps _ _) rfl)
    | with_reducible apply quiet_trans (k := State.raiseNone_quiet _ _)

theorem State.faultAsserted_quiet (s : State) : quiet s s.faultAsserted := by
  unfold State.faultAsserted
  try dsimp only
  repeat' first
    | with_reducible exact quiet_refl _
    | with_reducible apply quiet_trans (k := State.notReady_quiet _)
    | with_reducible apply quiet_trans (k := quiet_keeps (State.setPrinter_keeps _ _) rfl)

theorem State.speedLost_quiet (s : State) : quiet s s.speedLost := by
  unfold State.speedLost
  try dsimp only
  repeat' first
    | with_reducible exact quiet_refl _
    | with_reducible apply quiet_trans (k := State.notReady_quiet _)
    | with_reducible apply quiet_trans (k := quiet_keeps (State.setPrinter_keeps _ _) rfl)

theorem State.startTimeout_quiet (s : State) : quiet s s.startTimeout := by
  unfold State.startTimeout
  try dsimp only
  repeat' first
    | with_reducible exact quiet_refl _
    | with_reducible apply quiet_trans (k := State.notReady_quiet _)
    | with_reducible apply quiet_trans (k := quiet_keeps (State.setPrinter_keeps _ _) rfl)

theorem State.tapeOut_quiet (s : State) : quiet s s.tapeOut := by
  unfold State.tapeOut
  try dsimp only
  repeat' first
    | with_reducible exact quiet_refl _
    | with_reducible apply quiet_trans (k := quiet_keeps (State.setPunch_keeps _ _) rfl)
    | with_reducible apply quiet_trans (k := State.raiseNone_quiet _ _)
    | with_reducible apply quiet_trans (k := quiet_keeps (State.setTracker_keeps _ _) rfl)

theorem State.flagChange_quiet (s : State) : quiet s s.flagChange := by
  unfold State.flagChange
  try dsimp only
  repeat' first
    | with_reducible exact quiet_refl _
    | with_reducible apply quiet_trans (k := quiet_keeps (State.markDoubtful_keeps _) rfl)
    | with_reducible apply quiet_trans (k := quiet_keeps (State.setQuality_keeps _ _) rfl)
    | with_reducible apply quiet_trans (k := State.raiseNone_quiet _ _)
    | split

end Sys2Proof.Machine
end

