-- ==== Sys2Proof/Laws/State.lean ====
section
/-! SUPPORT. The lemmas of the state record: one per field per update. -/

namespace Sys2Proof.Machine

@[simp] theorem State.setLoader_loader (s : State) (x : Loader) : (s.setLoader x).loader = x := rfl
@[simp] theorem State.setLoader_liu (s : State) (x : Loader) : (s.setLoader x).liu = s.liu := rfl
@[simp] theorem State.setLoader_framer (s : State) (x : Loader) : (s.setLoader x).framer = s.framer := rfl
@[simp] theorem State.setLoader_gauge (s : State) (x : Loader) : (s.setLoader x).gauge = s.gauge := rfl
@[simp] theorem State.setLoader_quality (s : State) (x : Loader) : (s.setLoader x).quality = s.quality := rfl
@[simp] theorem State.setLoader_sender (s : State) (x : Loader) : (s.setLoader x).sender = s.sender := rfl
@[simp] theorem State.setLoader_listener (s : State) (x : Loader) : (s.setLoader x).listener = s.listener := rfl
@[simp] theorem State.setLoader_tracker (s : State) (x : Loader) : (s.setLoader x).tracker = s.tracker := rfl
@[simp] theorem State.setLoader_kbd (s : State) (x : Loader) : (s.setLoader x).kbd = s.kbd := rfl
@[simp] theorem State.setLoader_printer (s : State) (x : Loader) : (s.setLoader x).printer = s.printer := rfl
@[simp] theorem State.setLoader_punch (s : State) (x : Loader) : (s.setLoader x).punch = s.punch := rfl
@[simp] theorem State.setLoader_store (s : State) (x : Loader) : (s.setLoader x).store = s.store := rfl
@[simp] theorem State.setLoader_answer (s : State) (x : Loader) : (s.setLoader x).answer = s.answer := rfl
@[simp] theorem State.setLoader_links (s : State) (x : Loader) : (s.setLoader x).links = s.links := rfl
@[simp] theorem State.setLoader_port (s : State) (x : Loader) : (s.setLoader x).port = s.port := rfl
@[simp] theorem State.setLoader_pending (s : State) (x : Loader) : (s.setLoader x).pending = s.pending := rfl
@[simp] theorem State.setLiu_loader (s : State) (x : Liu) : (s.setLiu x).loader = s.loader := rfl
@[simp] theorem State.setLiu_liu (s : State) (x : Liu) : (s.setLiu x).liu = x := rfl
@[simp] theorem State.setLiu_framer (s : State) (x : Liu) : (s.setLiu x).framer = s.framer := rfl
@[simp] theorem State.setLiu_gauge (s : State) (x : Liu) : (s.setLiu x).gauge = s.gauge := rfl
@[simp] theorem State.setLiu_quality (s : State) (x : Liu) : (s.setLiu x).quality = s.quality := rfl
@[simp] theorem State.setLiu_sender (s : State) (x : Liu) : (s.setLiu x).sender = s.sender := rfl
@[simp] theorem State.setLiu_listener (s : State) (x : Liu) : (s.setLiu x).listener = s.listener := rfl
@[simp] theorem State.setLiu_tracker (s : State) (x : Liu) : (s.setLiu x).tracker = s.tracker := rfl
@[simp] theorem State.setLiu_kbd (s : State) (x : Liu) : (s.setLiu x).kbd = s.kbd := rfl
@[simp] theorem State.setLiu_printer (s : State) (x : Liu) : (s.setLiu x).printer = s.printer := rfl
@[simp] theorem State.setLiu_punch (s : State) (x : Liu) : (s.setLiu x).punch = s.punch := rfl
@[simp] theorem State.setLiu_store (s : State) (x : Liu) : (s.setLiu x).store = s.store := rfl
@[simp] theorem State.setLiu_answer (s : State) (x : Liu) : (s.setLiu x).answer = s.answer := rfl
@[simp] theorem State.setLiu_links (s : State) (x : Liu) : (s.setLiu x).links = s.links := rfl
@[simp] theorem State.setLiu_port (s : State) (x : Liu) : (s.setLiu x).port = s.port := rfl
@[simp] theorem State.setLiu_pending (s : State) (x : Liu) : (s.setLiu x).pending = s.pending := rfl
@[simp] theorem State.setFramer_loader (s : State) (x : Framer) : (s.setFramer x).loader = s.loader := rfl
@[simp] theorem State.setFramer_liu (s : State) (x : Framer) : (s.setFramer x).liu = s.liu := rfl
@[simp] theorem State.setFramer_framer (s : State) (x : Framer) : (s.setFramer x).framer = x := rfl
@[simp] theorem State.setFramer_gauge (s : State) (x : Framer) : (s.setFramer x).gauge = s.gauge := rfl
@[simp] theorem State.setFramer_quality (s : State) (x : Framer) : (s.setFramer x).quality = s.quality := rfl
@[simp] theorem State.setFramer_sender (s : State) (x : Framer) : (s.setFramer x).sender = s.sender := rfl
@[simp] theorem State.setFramer_listener (s : State) (x : Framer) : (s.setFramer x).listener = s.listener := rfl
@[simp] theorem State.setFramer_tracker (s : State) (x : Framer) : (s.setFramer x).tracker = s.tracker := rfl
@[simp] theorem State.setFramer_kbd (s : State) (x : Framer) : (s.setFramer x).kbd = s.kbd := rfl
@[simp] theorem State.setFramer_printer (s : State) (x : Framer) : (s.setFramer x).printer = s.printer := rfl
@[simp] theorem State.setFramer_punch (s : State) (x : Framer) : (s.setFramer x).punch = s.punch := rfl
@[simp] theorem State.setFramer_store (s : State) (x : Framer) : (s.setFramer x).store = s.store := rfl
@[simp] theorem State.setFramer_answer (s : State) (x : Framer) : (s.setFramer x).answer = s.answer := rfl
@[simp] theorem State.setFramer_links (s : State) (x : Framer) : (s.setFramer x).links = s.links := rfl
@[simp] theorem State.setFramer_port (s : State) (x : Framer) : (s.setFramer x).port = s.port := rfl
@[simp] theorem State.setFramer_pending (s : State) (x : Framer) : (s.setFramer x).pending = s.pending := rfl
@[simp] theorem State.setGauge_loader (s : State) (x : Gauge) : (s.setGauge x).loader = s.loader := rfl
@[simp] theorem State.setGauge_liu (s : State) (x : Gauge) : (s.setGauge x).liu = s.liu := rfl
@[simp] theorem State.setGauge_framer (s : State) (x : Gauge) : (s.setGauge x).framer = s.framer := rfl
@[simp] theorem State.setGauge_gauge (s : State) (x : Gauge) : (s.setGauge x).gauge = x := rfl
@[simp] theorem State.setGauge_quality (s : State) (x : Gauge) : (s.setGauge x).quality = s.quality := rfl
@[simp] theorem State.setGauge_sender (s : State) (x : Gauge) : (s.setGauge x).sender = s.sender := rfl
@[simp] theorem State.setGauge_listener (s : State) (x : Gauge) : (s.setGauge x).listener = s.listener := rfl
@[simp] theorem State.setGauge_tracker (s : State) (x : Gauge) : (s.setGauge x).tracker = s.tracker := rfl
@[simp] theorem State.setGauge_kbd (s : State) (x : Gauge) : (s.setGauge x).kbd = s.kbd := rfl
@[simp] theorem State.setGauge_printer (s : State) (x : Gauge) : (s.setGauge x).printer = s.printer := rfl
@[simp] theorem State.setGauge_punch (s : State) (x : Gauge) : (s.setGauge x).punch = s.punch := rfl
@[simp] theorem State.setGauge_store (s : State) (x : Gauge) : (s.setGauge x).store = s.store := rfl
@[simp] theorem State.setGauge_answer (s : State) (x : Gauge) : (s.setGauge x).answer = s.answer := rfl
@[simp] theorem State.setGauge_links (s : State) (x : Gauge) : (s.setGauge x).links = s.links := rfl
@[simp] theorem State.setGauge_port (s : State) (x : Gauge) : (s.setGauge x).port = s.port := rfl
@[simp] theorem State.setGauge_pending (s : State) (x : Gauge) : (s.setGauge x).pending = s.pending := rfl
@[simp] theorem State.setQuality_loader (s : State) (x : Quality) : (s.setQuality x).loader = s.loader := rfl
@[simp] theorem State.setQuality_liu (s : State) (x : Quality) : (s.setQuality x).liu = s.liu := rfl
@[simp] theorem State.setQuality_framer (s : State) (x : Quality) : (s.setQuality x).framer = s.framer := rfl
@[simp] theorem State.setQuality_gauge (s : State) (x : Quality) : (s.setQuality x).gauge = s.gauge := rfl
@[simp] theorem State.setQuality_quality (s : State) (x : Quality) : (s.setQuality x).quality = x := rfl
@[simp] theorem State.setQuality_sender (s : State) (x : Quality) : (s.setQuality x).sender = s.sender := rfl
@[simp] theorem State.setQuality_listener (s : State) (x : Quality) : (s.setQuality x).listener = s.listener := rfl
@[simp] theorem State.setQuality_tracker (s : State) (x : Quality) : (s.setQuality x).tracker = s.tracker := rfl
@[simp] theorem State.setQuality_kbd (s : State) (x : Quality) : (s.setQuality x).kbd = s.kbd := rfl
@[simp] theorem State.setQuality_printer (s : State) (x : Quality) : (s.setQuality x).printer = s.printer := rfl
@[simp] theorem State.setQuality_punch (s : State) (x : Quality) : (s.setQuality x).punch = s.punch := rfl
@[simp] theorem State.setQuality_store (s : State) (x : Quality) : (s.setQuality x).store = s.store := rfl
@[simp] theorem State.setQuality_answer (s : State) (x : Quality) : (s.setQuality x).answer = s.answer := rfl
@[simp] theorem State.setQuality_links (s : State) (x : Quality) : (s.setQuality x).links = s.links := rfl
@[simp] theorem State.setQuality_port (s : State) (x : Quality) : (s.setQuality x).port = s.port := rfl
@[simp] theorem State.setQuality_pending (s : State) (x : Quality) : (s.setQuality x).pending = s.pending := rfl
@[simp] theorem State.setSender_loader (s : State) (x : Sender) : (s.setSender x).loader = s.loader := rfl
@[simp] theorem State.setSender_liu (s : State) (x : Sender) : (s.setSender x).liu = s.liu := rfl
@[simp] theorem State.setSender_framer (s : State) (x : Sender) : (s.setSender x).framer = s.framer := rfl
@[simp] theorem State.setSender_gauge (s : State) (x : Sender) : (s.setSender x).gauge = s.gauge := rfl
@[simp] theorem State.setSender_quality (s : State) (x : Sender) : (s.setSender x).quality = s.quality := rfl
@[simp] theorem State.setSender_sender (s : State) (x : Sender) : (s.setSender x).sender = x := rfl
@[simp] theorem State.setSender_listener (s : State) (x : Sender) : (s.setSender x).listener = s.listener := rfl
@[simp] theorem State.setSender_tracker (s : State) (x : Sender) : (s.setSender x).tracker = s.tracker := rfl
@[simp] theorem State.setSender_kbd (s : State) (x : Sender) : (s.setSender x).kbd = s.kbd := rfl
@[simp] theorem State.setSender_printer (s : State) (x : Sender) : (s.setSender x).printer = s.printer := rfl
@[simp] theorem State.setSender_punch (s : State) (x : Sender) : (s.setSender x).punch = s.punch := rfl
@[simp] theorem State.setSender_store (s : State) (x : Sender) : (s.setSender x).store = s.store := rfl
@[simp] theorem State.setSender_answer (s : State) (x : Sender) : (s.setSender x).answer = s.answer := rfl
@[simp] theorem State.setSender_links (s : State) (x : Sender) : (s.setSender x).links = s.links := rfl
@[simp] theorem State.setSender_port (s : State) (x : Sender) : (s.setSender x).port = s.port := rfl
@[simp] theorem State.setSender_pending (s : State) (x : Sender) : (s.setSender x).pending = s.pending := rfl
@[simp] theorem State.setListener_loader (s : State) (x : Listener) : (s.setListener x).loader = s.loader := rfl
@[simp] theorem State.setListener_liu (s : State) (x : Listener) : (s.setListener x).liu = s.liu := rfl
@[simp] theorem State.setListener_framer (s : State) (x : Listener) : (s.setListener x).framer = s.framer := rfl
@[simp] theorem State.setListener_gauge (s : State) (x : Listener) : (s.setListener x).gauge = s.gauge := rfl
@[simp] theorem State.setListener_quality (s : State) (x : Listener) : (s.setListener x).quality = s.quality := rfl
@[simp] theorem State.setListener_sender (s : State) (x : Listener) : (s.setListener x).sender = s.sender := rfl
@[simp] theorem State.setListener_listener (s : State) (x : Listener) : (s.setListener x).listener = x := rfl
@[simp] theorem State.setListener_tracker (s : State) (x : Listener) : (s.setListener x).tracker = s.tracker := rfl
@[simp] theorem State.setListener_kbd (s : State) (x : Listener) : (s.setListener x).kbd = s.kbd := rfl
@[simp] theorem State.setListener_printer (s : State) (x : Listener) : (s.setListener x).printer = s.printer := rfl
@[simp] theorem State.setListener_punch (s : State) (x : Listener) : (s.setListener x).punch = s.punch := rfl
@[simp] theorem State.setListener_store (s : State) (x : Listener) : (s.setListener x).store = s.store := rfl
@[simp] theorem State.setListener_answer (s : State) (x : Listener) : (s.setListener x).answer = s.answer := rfl
@[simp] theorem State.setListener_links (s : State) (x : Listener) : (s.setListener x).links = s.links := rfl
@[simp] theorem State.setListener_port (s : State) (x : Listener) : (s.setListener x).port = s.port := rfl
@[simp] theorem State.setListener_pending (s : State) (x : Listener) : (s.setListener x).pending = s.pending := rfl
@[simp] theorem State.setTracker_loader (s : State) (x : Tracker) : (s.setTracker x).loader = s.loader := rfl
@[simp] theorem State.setTracker_liu (s : State) (x : Tracker) : (s.setTracker x).liu = s.liu := rfl
@[simp] theorem State.setTracker_framer (s : State) (x : Tracker) : (s.setTracker x).framer = s.framer := rfl
@[simp] theorem State.setTracker_gauge (s : State) (x : Tracker) : (s.setTracker x).gauge = s.gauge := rfl
@[simp] theorem State.setTracker_quality (s : State) (x : Tracker) : (s.setTracker x).quality = s.quality := rfl
@[simp] theorem State.setTracker_sender (s : State) (x : Tracker) : (s.setTracker x).sender = s.sender := rfl
@[simp] theorem State.setTracker_listener (s : State) (x : Tracker) : (s.setTracker x).listener = s.listener := rfl
@[simp] theorem State.setTracker_tracker (s : State) (x : Tracker) : (s.setTracker x).tracker = x := rfl
@[simp] theorem State.setTracker_kbd (s : State) (x : Tracker) : (s.setTracker x).kbd = s.kbd := rfl
@[simp] theorem State.setTracker_printer (s : State) (x : Tracker) : (s.setTracker x).printer = s.printer := rfl
@[simp] theorem State.setTracker_punch (s : State) (x : Tracker) : (s.setTracker x).punch = s.punch := rfl
@[simp] theorem State.setTracker_store (s : State) (x : Tracker) : (s.setTracker x).store = s.store := rfl
@[simp] theorem State.setTracker_answer (s : State) (x : Tracker) : (s.setTracker x).answer = s.answer := rfl
@[simp] theorem State.setTracker_links (s : State) (x : Tracker) : (s.setTracker x).links = s.links := rfl
@[simp] theorem State.setTracker_port (s : State) (x : Tracker) : (s.setTracker x).port = s.port := rfl
@[simp] theorem State.setTracker_pending (s : State) (x : Tracker) : (s.setTracker x).pending = s.pending := rfl
@[simp] theorem State.setKbd_loader (s : State) (x : Kbd) : (s.setKbd x).loader = s.loader := rfl
@[simp] theorem State.setKbd_liu (s : State) (x : Kbd) : (s.setKbd x).liu = s.liu := rfl
@[simp] theorem State.setKbd_framer (s : State) (x : Kbd) : (s.setKbd x).framer = s.framer := rfl
@[simp] theorem State.setKbd_gauge (s : State) (x : Kbd) : (s.setKbd x).gauge = s.gauge := rfl
@[simp] theorem State.setKbd_quality (s : State) (x : Kbd) : (s.setKbd x).quality = s.quality := rfl
@[simp] theorem State.setKbd_sender (s : State) (x : Kbd) : (s.setKbd x).sender = s.sender := rfl
@[simp] theorem State.setKbd_listener (s : State) (x : Kbd) : (s.setKbd x).listener = s.listener := rfl
@[simp] theorem State.setKbd_tracker (s : State) (x : Kbd) : (s.setKbd x).tracker = s.tracker := rfl
@[simp] theorem State.setKbd_kbd (s : State) (x : Kbd) : (s.setKbd x).kbd = x := rfl
@[simp] theorem State.setKbd_printer (s : State) (x : Kbd) : (s.setKbd x).printer = s.printer := rfl
@[simp] theorem State.setKbd_punch (s : State) (x : Kbd) : (s.setKbd x).punch = s.punch := rfl
@[simp] theorem State.setKbd_store (s : State) (x : Kbd) : (s.setKbd x).store = s.store := rfl
@[simp] theorem State.setKbd_answer (s : State) (x : Kbd) : (s.setKbd x).answer = s.answer := rfl
@[simp] theorem State.setKbd_links (s : State) (x : Kbd) : (s.setKbd x).links = s.links := rfl
@[simp] theorem State.setKbd_port (s : State) (x : Kbd) : (s.setKbd x).port = s.port := rfl
@[simp] theorem State.setKbd_pending (s : State) (x : Kbd) : (s.setKbd x).pending = s.pending := rfl
@[simp] theorem State.setPrinter_loader (s : State) (x : Printer) : (s.setPrinter x).loader = s.loader := rfl
@[simp] theorem State.setPrinter_liu (s : State) (x : Printer) : (s.setPrinter x).liu = s.liu := rfl
@[simp] theorem State.setPrinter_framer (s : State) (x : Printer) : (s.setPrinter x).framer = s.framer := rfl
@[simp] theorem State.setPrinter_gauge (s : State) (x : Printer) : (s.setPrinter x).gauge = s.gauge := rfl
@[simp] theorem State.setPrinter_quality (s : State) (x : Printer) : (s.setPrinter x).quality = s.quality := rfl
@[simp] theorem State.setPrinter_sender (s : State) (x : Printer) : (s.setPrinter x).sender = s.sender := rfl
@[simp] theorem State.setPrinter_listener (s : State) (x : Printer) : (s.setPrinter x).listener = s.listener := rfl
@[simp] theorem State.setPrinter_tracker (s : State) (x : Printer) : (s.setPrinter x).tracker = s.tracker := rfl
@[simp] theorem State.setPrinter_kbd (s : State) (x : Printer) : (s.setPrinter x).kbd = s.kbd := rfl
@[simp] theorem State.setPrinter_printer (s : State) (x : Printer) : (s.setPrinter x).printer = x := rfl
@[simp] theorem State.setPrinter_punch (s : State) (x : Printer) : (s.setPrinter x).punch = s.punch := rfl
@[simp] theorem State.setPrinter_store (s : State) (x : Printer) : (s.setPrinter x).store = s.store := rfl
@[simp] theorem State.setPrinter_answer (s : State) (x : Printer) : (s.setPrinter x).answer = s.answer := rfl
@[simp] theorem State.setPrinter_links (s : State) (x : Printer) : (s.setPrinter x).links = s.links := rfl
@[simp] theorem State.setPrinter_port (s : State) (x : Printer) : (s.setPrinter x).port = s.port := rfl
@[simp] theorem State.setPrinter_pending (s : State) (x : Printer) : (s.setPrinter x).pending = s.pending := rfl
@[simp] theorem State.setPunch_loader (s : State) (x : Punch) : (s.setPunch x).loader = s.loader := rfl
@[simp] theorem State.setPunch_liu (s : State) (x : Punch) : (s.setPunch x).liu = s.liu := rfl
@[simp] theorem State.setPunch_framer (s : State) (x : Punch) : (s.setPunch x).framer = s.framer := rfl
@[simp] theorem State.setPunch_gauge (s : State) (x : Punch) : (s.setPunch x).gauge = s.gauge := rfl
@[simp] theorem State.setPunch_quality (s : State) (x : Punch) : (s.setPunch x).quality = s.quality := rfl
@[simp] theorem State.setPunch_sender (s : State) (x : Punch) : (s.setPunch x).sender = s.sender := rfl
@[simp] theorem State.setPunch_listener (s : State) (x : Punch) : (s.setPunch x).listener = s.listener := rfl
@[simp] theorem State.setPunch_tracker (s : State) (x : Punch) : (s.setPunch x).tracker = s.tracker := rfl
@[simp] theorem State.setPunch_kbd (s : State) (x : Punch) : (s.setPunch x).kbd = s.kbd := rfl
@[simp] theorem State.setPunch_printer (s : State) (x : Punch) : (s.setPunch x).printer = s.printer := rfl
@[simp] theorem State.setPunch_punch (s : State) (x : Punch) : (s.setPunch x).punch = x := rfl
@[simp] theorem State.setPunch_store (s : State) (x : Punch) : (s.setPunch x).store = s.store := rfl
@[simp] theorem State.setPunch_answer (s : State) (x : Punch) : (s.setPunch x).answer = s.answer := rfl
@[simp] theorem State.setPunch_links (s : State) (x : Punch) : (s.setPunch x).links = s.links := rfl
@[simp] theorem State.setPunch_port (s : State) (x : Punch) : (s.setPunch x).port = s.port := rfl
@[simp] theorem State.setPunch_pending (s : State) (x : Punch) : (s.setPunch x).pending = s.pending := rfl
@[simp] theorem State.setStore_loader (s : State) (x : Store) : (s.setStore x).loader = s.loader := rfl
@[simp] theorem State.setStore_liu (s : State) (x : Store) : (s.setStore x).liu = s.liu := rfl
@[simp] theorem State.setStore_framer (s : State) (x : Store) : (s.setStore x).framer = s.framer := rfl
@[simp] theorem State.setStore_gauge (s : State) (x : Store) : (s.setStore x).gauge = s.gauge := rfl
@[simp] theorem State.setStore_quality (s : State) (x : Store) : (s.setStore x).quality = s.quality := rfl
@[simp] theorem State.setStore_sender (s : State) (x : Store) : (s.setStore x).sender = s.sender := rfl
@[simp] theorem State.setStore_listener (s : State) (x : Store) : (s.setStore x).listener = s.listener := rfl
@[simp] theorem State.setStore_tracker (s : State) (x : Store) : (s.setStore x).tracker = s.tracker := rfl
@[simp] theorem State.setStore_kbd (s : State) (x : Store) : (s.setStore x).kbd = s.kbd := rfl
@[simp] theorem State.setStore_printer (s : State) (x : Store) : (s.setStore x).printer = s.printer := rfl
@[simp] theorem State.setStore_punch (s : State) (x : Store) : (s.setStore x).punch = s.punch := rfl
@[simp] theorem State.setStore_store (s : State) (x : Store) : (s.setStore x).store = x := rfl
@[simp] theorem State.setStore_answer (s : State) (x : Store) : (s.setStore x).answer = s.answer := rfl
@[simp] theorem State.setStore_links (s : State) (x : Store) : (s.setStore x).links = s.links := rfl
@[simp] theorem State.setStore_port (s : State) (x : Store) : (s.setStore x).port = s.port := rfl
@[simp] theorem State.setStore_pending (s : State) (x : Store) : (s.setStore x).pending = s.pending := rfl
@[simp] theorem State.setAnswer_loader (s : State) (x : Answer) : (s.setAnswer x).loader = s.loader := rfl
@[simp] theorem State.setAnswer_liu (s : State) (x : Answer) : (s.setAnswer x).liu = s.liu := rfl
@[simp] theorem State.setAnswer_framer (s : State) (x : Answer) : (s.setAnswer x).framer = s.framer := rfl
@[simp] theorem State.setAnswer_gauge (s : State) (x : Answer) : (s.setAnswer x).gauge = s.gauge := rfl
@[simp] theorem State.setAnswer_quality (s : State) (x : Answer) : (s.setAnswer x).quality = s.quality := rfl
@[simp] theorem State.setAnswer_sender (s : State) (x : Answer) : (s.setAnswer x).sender = s.sender := rfl
@[simp] theorem State.setAnswer_listener (s : State) (x : Answer) : (s.setAnswer x).listener = s.listener := rfl
@[simp] theorem State.setAnswer_tracker (s : State) (x : Answer) : (s.setAnswer x).tracker = s.tracker := rfl
@[simp] theorem State.setAnswer_kbd (s : State) (x : Answer) : (s.setAnswer x).kbd = s.kbd := rfl
@[simp] theorem State.setAnswer_printer (s : State) (x : Answer) : (s.setAnswer x).printer = s.printer := rfl
@[simp] theorem State.setAnswer_punch (s : State) (x : Answer) : (s.setAnswer x).punch = s.punch := rfl
@[simp] theorem State.setAnswer_store (s : State) (x : Answer) : (s.setAnswer x).store = s.store := rfl
@[simp] theorem State.setAnswer_answer (s : State) (x : Answer) : (s.setAnswer x).answer = x := rfl
@[simp] theorem State.setAnswer_links (s : State) (x : Answer) : (s.setAnswer x).links = s.links := rfl
@[simp] theorem State.setAnswer_port (s : State) (x : Answer) : (s.setAnswer x).port = s.port := rfl
@[simp] theorem State.setAnswer_pending (s : State) (x : Answer) : (s.setAnswer x).pending = s.pending := rfl
@[simp] theorem State.setLinks_loader (s : State) (x : Links) : (s.setLinks x).loader = s.loader := rfl
@[simp] theorem State.setLinks_liu (s : State) (x : Links) : (s.setLinks x).liu = s.liu := rfl
@[simp] theorem State.setLinks_framer (s : State) (x : Links) : (s.setLinks x).framer = s.framer := rfl
@[simp] theorem State.setLinks_gauge (s : State) (x : Links) : (s.setLinks x).gauge = s.gauge := rfl
@[simp] theorem State.setLinks_quality (s : State) (x : Links) : (s.setLinks x).quality = s.quality := rfl
@[simp] theorem State.setLinks_sender (s : State) (x : Links) : (s.setLinks x).sender = s.sender := rfl
@[simp] theorem State.setLinks_listener (s : State) (x : Links) : (s.setLinks x).listener = s.listener := rfl
@[simp] theorem State.setLinks_tracker (s : State) (x : Links) : (s.setLinks x).tracker = s.tracker := rfl
@[simp] theorem State.setLinks_kbd (s : State) (x : Links) : (s.setLinks x).kbd = s.kbd := rfl
@[simp] theorem State.setLinks_printer (s : State) (x : Links) : (s.setLinks x).printer = s.printer := rfl
@[simp] theorem State.setLinks_punch (s : State) (x : Links) : (s.setLinks x).punch = s.punch := rfl
@[simp] theorem State.setLinks_store (s : State) (x : Links) : (s.setLinks x).store = s.store := rfl
@[simp] theorem State.setLinks_answer (s : State) (x : Links) : (s.setLinks x).answer = s.answer := rfl
@[simp] theorem State.setLinks_links (s : State) (x : Links) : (s.setLinks x).links = x := rfl
@[simp] theorem State.setLinks_port (s : State) (x : Links) : (s.setLinks x).port = s.port := rfl
@[simp] theorem State.setLinks_pending (s : State) (x : Links) : (s.setLinks x).pending = s.pending := rfl
@[simp] theorem State.setPort_loader (s : State) (x : Port) : (s.setPort x).loader = s.loader := rfl
@[simp] theorem State.setPort_liu (s : State) (x : Port) : (s.setPort x).liu = s.liu := rfl
@[simp] theorem State.setPort_framer (s : State) (x : Port) : (s.setPort x).framer = s.framer := rfl
@[simp] theorem State.setPort_gauge (s : State) (x : Port) : (s.setPort x).gauge = s.gauge := rfl
@[simp] theorem State.setPort_quality (s : State) (x : Port) : (s.setPort x).quality = s.quality := rfl
@[simp] theorem State.setPort_sender (s : State) (x : Port) : (s.setPort x).sender = s.sender := rfl
@[simp] theorem State.setPort_listener (s : State) (x : Port) : (s.setPort x).listener = s.listener := rfl
@[simp] theorem State.setPort_tracker (s : State) (x : Port) : (s.setPort x).tracker = s.tracker := rfl
@[simp] theorem State.setPort_kbd (s : State) (x : Port) : (s.setPort x).kbd = s.kbd := rfl
@[simp] theorem State.setPort_printer (s : State) (x : Port) : (s.setPort x).printer = s.printer := rfl
@[simp] theorem State.setPort_punch (s : State) (x : Port) : (s.setPort x).punch = s.punch := rfl
@[simp] theorem State.setPort_store (s : State) (x : Port) : (s.setPort x).store = s.store := rfl
@[simp] theorem State.setPort_answer (s : State) (x : Port) : (s.setPort x).answer = s.answer := rfl
@[simp] theorem State.setPort_links (s : State) (x : Port) : (s.setPort x).links = s.links := rfl
@[simp] theorem State.setPort_port (s : State) (x : Port) : (s.setPort x).port = x := rfl
@[simp] theorem State.setPort_pending (s : State) (x : Port) : (s.setPort x).pending = s.pending := rfl
@[simp] theorem State.setPending_loader (s : State) (x : List Instr) : (s.setPending x).loader = s.loader := rfl
@[simp] theorem State.setPending_liu (s : State) (x : List Instr) : (s.setPending x).liu = s.liu := rfl
@[simp] theorem State.setPending_framer (s : State) (x : List Instr) : (s.setPending x).framer = s.framer := rfl
@[simp] theorem State.setPending_gauge (s : State) (x : List Instr) : (s.setPending x).gauge = s.gauge := rfl
@[simp] theorem State.setPending_quality (s : State) (x : List Instr) : (s.setPending x).quality = s.quality := rfl
@[simp] theorem State.setPending_sender (s : State) (x : List Instr) : (s.setPending x).sender = s.sender := rfl
@[simp] theorem State.setPending_listener (s : State) (x : List Instr) : (s.setPending x).listener = s.listener := rfl
@[simp] theorem State.setPending_tracker (s : State) (x : List Instr) : (s.setPending x).tracker = s.tracker := rfl
@[simp] theorem State.setPending_kbd (s : State) (x : List Instr) : (s.setPending x).kbd = s.kbd := rfl
@[simp] theorem State.setPending_printer (s : State) (x : List Instr) : (s.setPending x).printer = s.printer := rfl
@[simp] theorem State.setPending_punch (s : State) (x : List Instr) : (s.setPending x).punch = s.punch := rfl
@[simp] theorem State.setPending_store (s : State) (x : List Instr) : (s.setPending x).store = s.store := rfl
@[simp] theorem State.setPending_answer (s : State) (x : List Instr) : (s.setPending x).answer = s.answer := rfl
@[simp] theorem State.setPending_links (s : State) (x : List Instr) : (s.setPending x).links = s.links := rfl
@[simp] theorem State.setPending_port (s : State) (x : List Instr) : (s.setPending x).port = s.port := rfl
@[simp] theorem State.setPending_pending (s : State) (x : List Instr) : (s.setPending x).pending = x := rfl

end Sys2Proof.Machine
end

