-- ==== Sys2Proof/Tests/Slice0.lean ====
section
/-! SUPPORT. Tests of the model by hand from the spec, the smoke test of WellFormed, and for each statement with
hypotheses a witness: concrete states and operands that meet them, clause by clause. -/

namespace Sys2Proof.Tests

open Sys2Proof.Machine Sys2Proof.Safety

/-! ### States -/

/-- The own code, and another station's. -/
abbrev own : StationCode := ⟨12, 7⟩
abbrev other : StationCode := ⟨20, 3⟩

/-- A station that has started up, the line not yet at REST. -/
def live : State :=
  { State.reset with
    loader := { Loader.powerOn with phase := .complete, config := some .valid, individual := some own }
    liu := { Liu.reset with divisor := some 1152 }
    answer := { Answer.reset with access := some [1, 2, 3, 4] }
    links := { Links.reset with table := some defaultLinks, isDefault := true } }

/-- The line at REST, with `n` elements counted. -/
def resting (n : Nat) : State :=
  { live with
    liu := { live.liu with quiet := 768 + 64 * n, rest := true }, framer := { live.framer with state := .quiet } }

/-- A call's record. -/
def record (role : Role) (kind : CallKind) : LogRecord :=
  { serial := 7, role := role, origin := other, dest := own, kind := kind, outcome := none, disp := none, chars := 0,
    errs := 0, maxD := 0, doubtful := false, timedOut := false, noAnswerBack := false, punch := .none,
    answeredBy := none, dirIndex := none, deliveries := none }

/-- A call held in a state. -/
def call (role : Role) (state : CallState) : Call := ⟨record role .message, state, false, 0, .message, false⟩

/-- The state holding a call. -/
def holding (s : State) (c : Call) : State := { s with tracker := { s.tracker with lastSerial := 7, call := some c } }

/-- A directory entry of one block with `len` cells. -/
def entry (kind : EntryKind) (state : EntryState) (len : Nat) : DirEntry :=
  { kind := kind, state := state, serial := 7, origin := other, dest := own, outcome := none, len := len, chain := [0],
    print := .waiting, printPos := 0, doubtful := false, damaged := false, continued := false, kept := false,
    attempts := 0, retry := none, sending := none }

/-- The store with one entry, in slot 0 and block 0. -/
def stored (e : DirEntry) : Store :=
  { Store.powerOn with
    free := (List.range 64).tail, slots := some e :: List.replicate 31 none, order := [0] }

/-- A job of the station's own. -/
def job (kind : JobKind) (source : TextSource) : Job := ⟨kind, other, source, false, false, none⟩

/-- The Sender in a phase with a job. -/
def sending (s : State) (phase : SenderPhase) (j : Job) : State :=
  { s with sender := { s.sender with phase := phase, job := some j } }

/-- The line at REST with a job in WAIT-GUARD at a guard. -/
def ready (n : Nat) (j : Job) (g : Nat) : State :=
  { sending (resting n) .waitGuard j with sender := { (sending (resting n) .waitGuard j).sender with guard := g } }

/-- The Sender in YIELD. -/
def yielding (n : Nat) : State := sending (resting n) .yielding (job .message .keyboard)

/-- The line while the own Sender drives an element whose end is due. -/
def driving (s : State) (k : ElemKind) : State :=
  { s with liu := { s.liu with drive := .sending, elem := some ⟨k, .p, 64⟩, elemIdx := 64 } }

/-- A function key at its fourth closed reading. -/
def pressed (s : State) (n : Nat) : State := { s with kbd := { s.kbd with fns := s.kbd.fns.set n ⟨false, 4⟩ } }

/-- A matrix key at its fourth closed reading. -/
def keyed (s : State) (p : Nat) : State := { s with kbd := { s.kbd with keys := s.kbd.keys.set p ⟨false, 4⟩ } }

/-- The keyboard in a mode and set-up. -/
def keyboard (m : ModePos) (u : Setup) : State :=
  { live with kbd := { live.kbd with mode := ⟨m, m, 0⟩, setup := u } }

/-- A disposition record. -/
def disp (state : DispState) : DispRecord :=
  { state := state, spoolMark := false, taken := false, entry := none, spoolCase := .low, refusal := false,
    recorded := none, origin := other, dest := own, deliver := false, contFirst := false, lastJoin := none,
    later := false, eom := false }

/-- The state with a disposition record. -/
def disposed (s : State) (d : DispRecord) : State := { s with answer := { s.answer with disp := some d } }

/-- The Framer about to read the sample `t` of a character. -/
def framing (s : State) (t : Nat) : State := { s with framer := { s.framer with state := .assemble, t := t - 1 } }

/-- A transaction open in a started station. -/
def opened : Txn := ⟨0, false, false, false, [], .none⟩
def serviced (x : Txn) : State := { live with port := { live.port with selectLow := true, txn := some x } }

/-- An image with the right marker and the own code 12/07. -/
def image : Vector Byte 65 := Vector.ofFn fun i =>
  if i.val = 0 then 0x6B else if i.val = 1 then 12 else if i.val = 2 then 7 else if i.val = 29 then 1 else 0

/-- The state of an outcome, when it is a next one. -/
def after (o : Host.Outcome State Fault Refusal) : Option State :=
  match o with
  | .next t => some t
  | .fault _ => none
  | .refused _ => none

/-- A tick at which nothing is closed. -/
def quietTick : TickInputs :=
  ⟨0, false, false, false, false, false, false, .pos .line, .pos .off, true, false, false, false, false, false⟩

/-! ### WellFormed: each check refuses an ill-formed term -/

theorem test_log_number_16_is_ill_formed : (Instr.svcLog 16).wellFormed = false := by decide
theorem test_directory_32_is_ill_formed : (Instr.svcDirectory 32).wellFormed = false := by decide
theorem test_text_index_32_is_ill_formed : (Instr.svcText 32 0 1).wellFormed = false := by decide
theorem test_text_count_0_is_ill_formed : (Instr.svcText 0 0 0).wellFormed = false := by decide
theorem test_text_count_65_is_ill_formed : (Instr.svcText 0 0 65).wellFormed = false := by decide
theorem test_delete_32_is_ill_formed : (Instr.svcDelete 32).wellFormed = false := by decide
theorem test_keep_32_is_ill_formed : (Instr.svcKeep 32).wellFormed = false := by decide
theorem test_release_32_is_ill_formed : (Instr.svcRelease 32).wellFormed = false := by decide
theorem test_nak_with_a_byte_too_few_is_ill_formed : (Instr.svcNak 7 [1]).wellFormed = false := by decide
theorem test_text_of_64_is_well_formed : (Instr.svcText 31 65535 64).wellFormed = true := by decide

/-! ### Decode: no row of the table gives bits -/

theorem test_no_word_spells_a_command : decodeTableWord 16 0 = none ∧ decodeTableWord 8 255 = none := by decide

/-- R193, R194: command bytes with their parameters; an operation 4 of ENTRY and a 64-cell limit passed are NAK. -/
theorem test_transactions_decode :
    decodeTransaction 0x06 [3, 0x01, 0x02, 64] = .svcText 3 258 64 ∧ decodeTransaction 0x07 [2, 31] = .svcKeep 31 ∧
      decodeTransaction 0x07 [4, 0] = .svcNak 7 [4, 0] ∧ decodeTransaction 0x06 [3, 0, 0, 65] = .svcNak 6 [3, 0, 0, 65] ∧
      decodeTransaction 0x0A [] = .svcNak 0x0A [] := by decide

/-! ### The spec's rules on small states -/

/-- R3: both comparators active read as Z. -/
theorem test_both_comparators_read_as_Z : readLevel true true = .z ∧ readLevel true false = .p := by decide

/-- R45, worked case of section 3.3: the generator from 391, the seed of 12/07, and the guards drawn. -/
theorem test_generator_worked_case :
    deferralStep (deferralStep (deferralStep 391)) = 3128 ∧ deferralStep 3128 = 6256 ∧
      contentionGuardOf 3128 false = 48 ∧ contentionGuardOf 6224 false = 40 := by decide

/-- R45: the guard is 40 to 55, and up to 87 with the courtesy mark. -/
theorem test_guard_range : contentionGuardOf 15 false = 55 ∧ contentionGuardOf 15 true = 87 := by decide

/-- R4: code 1 is a space, a mark, four spaces and the stop. -/
theorem test_elements_of_code_1 :
    charElems 1 = [.space, .mark, .space, .space, .space, .space, .stop] := by decide

/-- R28: a transition at the end of the start is in its place; one at t = 90 is displaced by 26. -/
theorem test_displacement : displacement 64 = 0 ∧ displacement 90 = 26 ∧ displacement 96 = 32 ∧ displacement 10 = 32 := by
  decide

/-- R40: a header to a code with a 0 element is INVALID. -/
theorem test_header_with_zero_element : headerOf [(20, false), (3, false), (1, false), (0, false), (7, false)] = .invalid := by
  decide

/-- R127: a cell as written has odd parity over its seven bits. -/
theorem test_cell_parity : (Cell.make 1 false).par = false ∧ (Cell.make 0 false).par = true ∧ (Cell.make 0 true).par = false := by
  decide

/-- R60: serials run to 9999 and start again at 1. -/
theorem test_serials_wrap : nextSerial 9999 = 1 ∧ nextSerial 0 = 1 := by decide

/-- R33: the fine counter stays at 255 and sets its sticky indicator. -/
theorem test_fine_ceiling :
    (Integrator.event ⟨255, 0, 9, true, false⟩ 255) = ⟨255, 0, 9, true, true⟩ := by decide

/-- R164: a POLL text is four codes and EOM, with HS before it or not. -/
theorem test_poll_texts :
    pollWellFormed [1, 2, 3, 4, 29] = true ∧ pollWellFormed [1, 2, 3, 4, 17, 29] = true ∧
      pollWellFormed [1, 2, 3, 29] = false := by decide

/-- R1, R70: a tick drives the next row. -/
theorem test_tick_drives_next_row : ((after (exec (.scanRow quietTick) live)).map fun t => t.kbd.row) = some 1 := by decide

/-- R184, R185: an image with the marker and an own code is VALID, and its access code opens the facility. -/
theorem test_image_is_valid :
    ((after (exec (.configReadDone (some image)) { live with loader := { live.loader with phase := .reading } })).map
      fun t => (t.loader.config, t.loader.individual, t.answer.facility)) =
      some (some .valid, some own, .opened) := by decide +kernel

/-- R85: HERE-IS in MODE LOCAL makes twenty entries. -/
theorem test_here_is_makes_twenty_entries :
    ((after (exec .hereIs (pressed (keyboard .loc .ready) 4))).map fun t => t.kbd.queue.length) = some 20 := by
  decide +kernel

/-- R8, R9: a P sample ends the quiet count and starts the hold count. -/
theorem test_mark_sample_counts :
    ((after (exec (.sample true false) live)).map fun t => (t.liu.quiet, t.liu.hold)) = some (0, 1) := by decide

/-- R44, R7: at its guard the Sender drives P. -/
theorem test_guard_drives_P :
    ((after (exec .guardReached
      { sending (resting 40) .waitGuard (job .message .keyboard) with
        sender := { (sending (resting 40) .waitGuard (job .message .keyboard)).sender with guard := 40 } })).map
      fun t => (t.liu.driveP, t.liu.driveN)) = some (true, false) := by decide

/-- R100, R101: figure B in high case rings; NEW LINE comes first at the margin with ANL. -/
theorem test_commands_of_items :
    itemCommands 1 69 false (.code 25 false .high .loc) = [.bell] ∧
      itemCommands 70 69 true (.code 1 false .low .loc) = [.ret 69, .feed, .strike 1] ∧
      (Printer.reset).itemCmds false (.code 1 true .high .loc) = [.strike 0] := by decide

/-- R116: a claim begins with twelve leader rows, two of them in the stages. -/
theorem test_leader_rows : (Punch.reset.begin (.call 1)).queue.length = 10 := by decide

/-- R111: a BLANK row cuts the feed hole alone. -/
theorem test_blank_row_cuts_feed_hole :
    (let s : State := { live with punch := { live.punch with active := some ⟨0, .leader, .keyboard⟩, strobe := true } }
     s.feedHole = true ∧ s.punchOutput 1 = false ∧ s.punchOutput 5 = false) ∧ live.feedHole = false := by decide

/-- R107: FAULT that clears under PAPER OUT forms the recovery homing, which waits. -/
theorem test_homing_under_paper_out :
    ((after (exec .faultCleared
      { live with printer := { live.printer with fault := ⟨true, 4⟩, paper := ⟨true, 0⟩ } })).map
      fun t => (t.printer.active, t.printer.next, t.printer.motor)) =
      some (some ⟨.ret 69, false, none⟩, some ⟨.feed, false, none⟩, .stopped) := by decide

/-- R109: MOTOR-START takes back a stop request that a tick has met. -/
theorem test_motor_start_drops_met_stop :
    ({ Printer.reset with motor := .fault, stopReq := true, stopMet := true }.motorStart).stopMetDue = false := by decide

/-- R189, R192: zeros follow the status byte of a refusal; data out is inactive without the SVC latch. -/
theorem test_data_out_after_refusal :
    (let s := serviced opened.nak
     let u : State := { s with loader := { s.loader with svc := true } }
     u.dataOut 0 = some 0x80 ∧ u.dataOut 1 = some 0 ∧ s.dataOut 0 = none) := by decide

/-- R171, R181: the default table stops the punch at a selection only at an unattended station. -/
theorem test_default_table_at_selection :
    live.linkActions ⟨0, none⟩ 0 = [] ∧
      ({ live with kbd := { live.kbd with attended := ⟨false, false, 0⟩ } } : State).linkActions ⟨0, none⟩ 0 = [3, 1] := by decide

/-- R189, R192: an unknown command byte is refused, and a second command of the transaction ignored. -/
theorem test_nak :
    ((after (exec (.svcNak 0 []) (serviced opened))).bind fun t => t.port.txn.map Txn.response) = some [0x80] ∧
      after (exec .svcStatus (serviced { opened with taken := true })) = some (serviced { opened with taken := true }) := by
  decide +kernel

/-- R146, R148: DELETE frees the entry's block in its place. -/
theorem test_delete_frees_block :
    ((after (exec (.svcDelete 0) { serviced opened with store := stored (entry .received .closed 5) })).map
      fun t => (t.store.free.head?, t.store.order)) = some (some 0, []) := by decide

/-! ### Witnesses of the statements with hypotheses -/

theorem wit_StepTakesFrontCommand :
    ∃ (c : Instr) (rest : List Instr) (s : State), s.pending = c :: rest :=
  ⟨.selectLow, [.selectHigh], { live with pending := [.selectLow, .selectHigh] }, rfl⟩

theorem wit_IdleBlockRunsOwnStep :
    (∃ s : State, s.pending = [] ∧ s.due .errorLampTimeout = true) ∧
      ∃ (c : Instr) (s : State), c ∈ ownSteps ∧ c ≠ .elementTick ∧ s.due c = false :=
  ⟨⟨{ live with quality := { live.quality with errLamp := some 0 } }, by decide⟩, .burstEnd, live, by decide⟩

theorem wit_CommandFrame : ∃ (c : Instr) (s t : State), exec c s = .next t := ⟨.lineFaultCleared, live, _, rfl⟩

/-- Several ranges at their bounds. -/
def brimful : State :=
  { holding (resting 255) (call .called .holding) with
    quality := ⟨⟨255, 0, 8192, true, true⟩, ⟨63, 0, 8192, true, true⟩, none⟩, pending := [.lineFaultCleared] }

theorem wit_StepKeepsBounds : Bounded brimful ∧ ∃ t, step brimful = .next t :=
  ⟨{ element := (fun h => nomatch h), stages := by decide, quiet := by decide, hold := by decide
     fine := by decide, coarse := by decide, guard := by decide
     slot := by decide
     figures := by decide, held := fun c h => by cases h; decide, log := by decide, serial := by decide
     typeAhead := by decide, print := by decide, carriage := by decide, punch := by decide, answerBack := by decide
     wrong := by decide, given := fun c h => nomatch h
     alarm := (fun n h => nomatch h), raised := rfl }, _, rfl⟩

/-- A store of one entry. -/
def shelved : State :=
  { live with store := stored (entry .received .closed 256), pending := [.lineFaultCleared] }

theorem stored_entry (e : DirEntry) (i : Nat) : (stored e).entry i = if i = 0 then some e else none := by
  rcases i with _ | i
  · rfl
  · show (List.replicate 31 none).getD i none = none
    rw [List.getD_eq_getElem?_getD, List.getElem?_replicate]
    split <;> rfl

theorem stored_sound (e : DirEntry) (hc : e.chain = [0]) (hl : e.len ≤ 256) : StoreSound (stored e) :=
  { canonical := rfl, slots := rfl, orderNodup := by show [0].Nodup; decide
    orderPresent := fun i => by rw [stored_entry]; by_cases h : i = 0 <;> simp [stored, h]
    blocks := by
      show ((List.range 64).tail ++ (e.chain ++ (List.replicate 31 none).flatMap _)).Perm (List.range 64)
      rw [hc]
      decide +kernel
    freeRising := by show (List.range 64).tail.Pairwise (· < ·); decide +kernel
    chains := fun i f h => by
      rw [stored_entry] at h
      by_cases h0 : i = 0
      · rw [if_pos h0] at h; cases h; rw [hc]; exact ⟨by decide, by simpa using hl⟩
      · rw [if_neg h0] at h; cases h
    high := rfl }

theorem shelved_sound : StoreSound shelved.store := stored_sound _ rfl (by decide)

/-- An entry of a one-entry store that is SENDING in a call is the only one. -/
theorem stored_only (e : DirEntry) (k : Nat) (f : DirEntry) (h : (stored e).entry k = some f) : k = 0 := by
  rw [stored_entry] at h
  by_cases h0 : k = 0
  · exact h0
  · rw [if_neg h0] at h; cases h

theorem wit_StepKeepsStoreSound : StoreSound shelved.store ∧ ∃ t, step shelved = .next t := ⟨shelved_sound, _, rfl⟩

theorem wit_ResetPinKeepsLogAndStore :
    (State.reset.loader.phase = .inReset ∧ State.reset.loader.cause = .power) ∧
      ¬(live.loader.phase = .inReset ∧ live.loader.cause = .power) ∧ StoreSound shelved.store ∧
      (∃ o, punchCut { live.punch with own := some o } 7) ∧
      punchCut { live.punch with next := some ⟨1, .text, .call 7⟩ } 7 ∧ ¬punchCut live.punch 7 :=
  ⟨by decide, by decide, shelved_sound,
    ⟨⟨.call 7, .leader, 12, 0, false, 0⟩, Or.inl ⟨_, rfl, rfl, by decide⟩⟩,
    Or.inr ⟨⟨1, .text, .call 7⟩, by decide, rfl, rfl⟩, by
      rintro (⟨o, h, _⟩ | ⟨r, h, _⟩)
      · cases h
      · simp [punchRows, live, State.reset, Punch.reset] at h⟩

theorem wit_StrapsAndImageRead :
    (∃ s : State, s.loader.phase = .reading ∧ s.loader.attempts < 2) ∧
      (∃ s : State, s.loader.phase = .waiting ∧ s.loader.wait = 0) ∧
        ∃ s : State, s.loader.phase = .complete ∧ 6 ≤ s.loader.straps.rate.toNat ∧ 512 ≤ s.loader.flash :=
  ⟨⟨{ live with loader := { live.loader with phase := .reading, attempts := 1 } }, by decide⟩,
    ⟨{ live with loader := { live.loader with phase := .waiting } }, by decide⟩,
    { live with loader := { live.loader with straps := { live.loader.straps with rate := 6 }, flash := 512 } },
    by decide⟩

/-- The Loader reading the image. -/
def reading : State := { live with loader := { live.loader with phase := .reading, attempts := 2 } }

/-- An image with a link area that is not all zero. -/
def linkedImage : Vector Byte 65 := image.set 33 0x10

theorem wit_FinalReadCompletesStartUp :
    (reading.loader.phase = .reading ∧ 2 ≤ reading.loader.attempts ∧ reading.printer.fault.on = false ∧
        reading.printer.homeAtSpeed = false ∧ reading.printer.active = none ∧ reading.printer.next = none) ∧
      (let s : State := { reading with printer := { reading.printer with fault := ⟨true, 0⟩ } }
       s.loader.phase = .reading ∧ s.printer.fault.on = true) ∧
      (after (exec (.configReadDone none) reading)).map (fun t => t.loader.config) = some (some .noAnswer) ∧
      (after (exec (.configReadDone (some image)) reading)).map (fun t => t.loader.config) = some (some .valid) ∧
      (after (exec (.configReadDone (some linkedImage)) reading)).map (fun t => t.loader.config) = some (some .valid) ∧
      (∀ k : Fin 32, image[33 + k.val] = 0) ∧ linkedImage[33] ≠ 0 := by decide +kernel

theorem wit_SampleRunsCounters :
    (∃ s : State, s.liu.divisor.isSome = true ∧ s.liu.faultIn = true) ∧
      (∃ s : State, s.liu.divisor.isSome = true ∧ s.liu.faultIn = false ∧ s.liu.quiet = 17088) ∧
      (∃ s : State, s.liu.divisor = none) ∧ (∃ s : State, s.liu.rest = false) ∧
      -- the first mark after REST: a HOLDING call, a job in WAIT-GUARD, and a YIELD fresh or answered
      (let s := holding (resting 3) (call .called .holding)
       s.liu.divisor.isSome = true ∧ s.liu.faultIn = false ∧ s.liu.rest = true ∧ s.framer.state = .quiet ∧
         s.listener.phase = .atRest ∧ s.tracker.call = some (call .called .holding)) ∧
      (∀ k : JobKind, (ready 3 (job k .keyboard) 40).sender.phase = .waitGuard ∧
        (ready 3 (job k .keyboard) 40).framer.state = .quiet) ∧
      (∀ y : YieldState,
        let s := yielding 3
        let u : State := { s with sender := { s.sender with yld := y } }
        u.sender.phase = .yielding ∧ u.sender.yld = y ∧ u.liu.rest = true ∧ u.framer.state = .quiet) ∧
        ∃ (s : State) (n : Nat), s.liu.rest = true ∧ n = 254 ∧ s.liu.quiet = 768 + 64 * n + 63 :=
  ⟨⟨{ live with liu := { live.liu with faultIn := true } }, by decide⟩, ⟨{ live with liu := { live.liu with quiet := 17088 } }, by decide⟩,
    ⟨State.reset, by decide⟩, ⟨live, by decide⟩, by decide, fun _ => ⟨rfl, rfl⟩, fun _ => ⟨rfl, rfl, rfl, rfl⟩,
    { live with liu := { live.liu with quiet := 17087, rest := true } }, 254, by decide⟩

/-- Sample 32 of an element driven P in LEAD, and sample 96 of a stop of two elements. -/
def echoing (k : ElemKind) (len n : Nat) : State :=
  { sending live .lead (job .message .keyboard) with
    liu := { live.liu with drive := .sending, elem := some ⟨k, .p, len⟩, elemIdx := n } }

theorem wit_EchoMismatchStopsSending :
    ((echoing .hold 64 32).liu.divisor.isSome = true ∧ (echoing .hold 64 32).liu.faultIn = false ∧
        (echoing .hold 64 32).liu.drive = .sending ∧ (echoing .hold 64 32).liu.elem = some ⟨.hold, .p, 64⟩ ∧
        (echoing .hold 64 32).liu.elemIdx = 32 ∧ (echoing .hold 64 32).sender.phase = .lead) ∧
      ((echoing .stop 128 96).liu.elem = some ⟨.stop, .p, 128⟩ ∧ (echoing .stop 128 96).liu.elemIdx = 96) ∧
      (live.liu.drive = .off ∧ live.sender.phase ≠ .watchLine) ∧
      ∃ s : State, s.liu.divisor.isSome = true ∧ s.liu.drive = .burst ∧ s.sender.phase = .idle :=
  ⟨by decide, by decide, by decide, { live with liu := { live.liu with drive := .burst } }, by decide⟩

/-- The Framer in LEAD-WATCH, with the Listener. -/
def leading (run revs : Nat) : State :=
  { live with
    framer := { live.framer with state := .leadWatch, run := run, revs := revs, prev := .n }
    listener := { live.listener with phase := .leadWatch } }

theorem wit_LeadInRecognised :
    ((leading 703 9).liu.divisor.isSome = true ∧ (leading 703 9).liu.faultIn = false ∧
        (leading 703 9).framer.state = .leadWatch ∧ 703 ≤ (leading 703 9).framer.run ∧
        10 ≤ (leading 703 9).framer.revs + (if Level.p = (leading 703 9).framer.prev then 0 else 1) ∧
        (leading 703 9).listener.phase = .leadWatch ∧ (leading 703 9).liu.rest = false) ∧
      ((leading 702 40).framer.run < 703 ∧
        (leading 703 9).framer.revs + (if Level.n = (leading 703 9).framer.prev then 0 else 1) < 10) := by decide

theorem wit_CharacterElementsSampled :
    (let s : State := { live with framer := { live.framer with state := .hunt, prev := .p } }
     s.framer.state = .hunt ∧ s.framer.prev ≠ .z) ∧
    ((framing live 1).framer.t < 415 ∧ (framing live 1).framer.t ≠ 31 ∧ (framing live 415).framer.t < 415 ∧
      (framing live 32).framer.t = 31) ∧
    ((framing live 32).liu.divisor.isSome = true ∧ (framing live 32).liu.faultIn = false ∧
        (framing live 32).framer.state = .assemble ∧ (framing live 32).framer.t = 31) ∧
      (framing live 96).framer.t = 64 * (0 + 1) + 31 ∧ (framing live 352).framer.t = 64 * (4 + 1) + 31 := by decide

/-- The stop sample of the header character after `cs`, the code of the character being `c`. -/
def stopping (cs : List (Code × Bool)) (c : Code) : State :=
  { framing live 416 with
    framer := { (framing live 416).framer with seenMark := true, code := c }
    listener := { live.listener with phase := .header, chars := cs }
    tracker := { live.tracker with belongs := .before } }

/-- Four characters of a MESSAGE header from 20/03 to 12/..; the fifth is 7. -/
def fourChars (e : Bool) : List (Code × Bool) := [(20, false), (3, e), (1, false), (12, false)]

theorem wit_StopSampledAt416 :
    (let s := stopping [(1, false), (2, false), (3, false)] 7
     s.liu.divisor.isSome = true ∧ s.liu.faultIn = false ∧ s.liu.rest = false ∧ s.framer.state = .assemble ∧
       s.framer.t = 415 ∧ s.listener.phase = .header ∧ s.listener.hdr = .pending ∧ s.listener.chars.length < 4 ∧
       s.framer.seenMark = true ∧ s.tracker.belongs = .before) ∧
      (let s := framing live 416
       s.framer.t = 415 ∧ s.framer.seenMark = false) ∧
      (let s := stopping (fourChars false) 7
       s.listener.chars.length = 4 ∧ s.tracker.belongs = .before ∧ s.sender.phase ≠ .watchLine ∧ s.liu.drive ≠ .sending ∧
         headerSpelled (fourChars false ++ [(7, false)]) other .message own) ∧
      headerSpelled [(20, false), (3, false), (4, false), (12, false), (7, false)] other .poll own ∧
      headerSpelled [(20, false), (3, false), (5, false), (12, false), (7, false)] other .deliver own ∧
      (∀ o k d, ¬headerSpelled (fourChars true ++ [(7, false)]) o k d) ∧
      (∀ o k d, ¬headerSpelled (fourChars false ++ [(7, true)]) o k d) ∧
      (holding (stopping (fourChars true) 7) (call .called .judging)).tracker.call = some (call .called .judging) ∧
      distortionOf [10, 90] = 32 ∧ distortionOf [64, 90, 201, 416] = 32 ∧ distortionOf [64, 90, 201] = 26 := by
  refine ⟨by decide, by decide, ⟨by decide, by decide, by decide, by decide, by unfold headerSpelled; decide⟩,
    by unfold headerSpelled; decide, by unfold headerSpelled; decide, ?_, ?_, by decide, by decide, by decide, by decide⟩ <;>
    (intro o k d h; have := h.1; simp [fourChars] at this)

/-- R28, R29: an early second element is displaced by 26, past the margin of 16, and costs one error event; the fifth
header character makes the header valid. -/
theorem test_fifth_character_completes_header :
    ((after (exec (.sample true false) { stopping (fourChars false) 7 with gauge := ⟨[64, 90]⟩ })).map
      fun t => (t.listener.hdr, t.tracker.call.map fun c => (c.log.errs, c.log.maxD, c.log.role))) =
      some (.valid other .message own, some (1, 32, .called)) := by decide +kernel

theorem wit_ErrorEventCounts :
    (∃ s : State, s.quality.errLamp = some 0 ∧ s.loader.phase ≠ .inReset) ∧
      (∃ s t : State, exec .powerOn s = .next t) ∧
      (let s := serviced { opened with effect := .reset }
       ∃ t, exec .selectHigh s = .next t ∧ s.port.txn = some { opened with effect := .reset }) ∧
        ∃ s t : State, exec .svcStatus s = .next t ∧ s.port.errFlag = true :=
  ⟨⟨{ live with quality := { live.quality with errLamp := some 0 } }, by decide⟩, ⟨live, _, rfl⟩, ⟨_, rfl, rfl⟩,
    { live with port := { live.port with errFlag := true } }, _, rfl, rfl⟩

/-- The line quiet for 768 samples, REST not yet recognised, with an ACTIVE call and an answer pending. -/
def quieted (state : CallState) : State :=
  { holding live (call .called state) with
    liu := { live.liu with quiet := 768 }
    framer := { live.framer with state := .hunt }
    answer := { live.answer with pending := true } }

theorem wit_RestRecognised :
    ((quieted .active).liu.divisor.isSome = true ∧ (quieted .active).liu.faultIn = false ∧ 768 ≤ (quieted .active).liu.quiet ∧
        (quieted .active).liu.rest = false ∧ (quieted .active).framer.state = .hunt ∧
        (quieted .active).tracker.call = some (call .called .active) ∧ (call .called .active).state = .active ∧
        (quieted .active).sender.phase ≠ .watchLine ∧ (quieted .active).sender.phase ≠ .waitGuard ∧
        (quieted .active).answer.pending = true) ∧
      ((quieted .judging).tracker.call = some (call .called .judging) ∧ (call .called .judging).state = .judging) ∧
      (let s := sending (quieted .active) .waitGuard (job .poll (.access [1, 2, 3, 4]))
       s.sender.phase = .waitGuard ∧ s.sender.job = some (job .poll (.access [1, 2, 3, 4])) ∧ s.answer.pending = true) ∧
      let s := { sending (quieted .active) .waitGuard (job .message (.store (some 0))) with
        store := stored (entry .prepared .sending 5) }
      s.sender.job = some (job .message (.store (some 0))) ∧ s.store.entry 0 = some (entry .prepared .sending 5) := by
  decide

/-- A P held for 512 samples in a call. -/
def broken : State :=
  { holding live (call .called .active) with
    liu := { live.liu with hold := 512, lastLevel := .p }, framer := { live.framer with state := .assemble } }

theorem wit_BreakEndsCall :
    (broken.liu.divisor.isSome = true ∧ broken.liu.hold = 512 ∧ broken.liu.breakRaised = false ∧
        broken.framer.state ≠ .quiet ∧ broken.tracker.call = some (call .called .active) ∧ broken.answer.disp = none) ∧
      (disposed broken { disp .refused with refusal := true }).answer.disp =
        some { disp .refused with refusal := true } ∧
      -- a DELIVER at the collector, and the keyboard's own job sending
      (let d : DispRecord := { disp .spool with deliver := true, entry := some 0, recorded := some .spool }
       let c : Call := { call .caller .active with log := record .caller .poll, sKind := .deliver }
       let s := disposed { holding broken c with store := stored (entry .received .opened 5) } d
       let u : State := { s with listener := { s.listener with phase := .text } }
       u.answer.disp = some d ∧ d.deliver = true ∧ u.listener.phase ≠ .atRest ∧ u.tracker.call = some c ∧
         c.state = .active ∧ c.log.role = .caller ∧ u.store.entry 0 = some (entry .received .opened 5) ∧
         u.answer.coll = none) ∧
      (let s := sending broken .text (job .message .keyboard)
       s.sender.job = some (job .message .keyboard) ∧ s.sender.phase = .text) ∧
      keyboardJob (job .message .keyboard) ∧ broken.sender.phase = .idle ∧ (call .called .active).log.role ≠ .caller :=
  ⟨by decide, by decide, by decide +kernel, by decide, ⟨Or.inl rfl, Or.inl rfl⟩, by decide⟩

/-- R86: a LINE set-up goes back to READY with the request and the LINE entries gone; a PREPARE one stays. -/
theorem test_request_ended :
    (let k : Kbd :=
       { live.kbd with
         setup := .openLine other, request := some ⟨other, none, true⟩
         queue := [⟨some 1, none, .line, none⟩, ⟨some 2, none, .loc, none⟩] }
     requestEnded k = { live.kbd with queue := [⟨some 2, none, .loc, none⟩] }) ∧
      (requestEnded { live.kbd with setup := .openPrepare other 0 }).setup = .openPrepare other 0 := by decide

theorem wit_LineTimersEnd :
    (∃ s : State, s.liu.drive = .burst ∧ 1024 ≤ s.liu.burstN) ∧
      (∃ s : State, s.liu.faultLatch = true ∧ s.liu.rest = true ∧ 24 ≤ s.restCount) ∧
      (∃ s : State, s.quality.errLamp = some 0) ∧
      (∃ s : State, (if s.quality.fine.flag then 16384 else 4096) ≤ s.quality.fine.divider) ∧
      (∃ s : State, (if s.quality.coarse.flag then 512 else 128) ≤ s.quality.coarse.divider) ∧
        ∃ s : State, s.liu.divisor.isSome = true ∧ 64 ≤ s.liu.tickPhase :=
  ⟨⟨{ live with liu := { live.liu with drive := .burst, burstN := 1024 } }, by decide⟩,
    ⟨{ resting 24 with liu := { (resting 24).liu with faultLatch := true } }, by decide⟩,
    ⟨{ live with quality := { live.quality with errLamp := some 0 } }, by decide⟩,
    ⟨{ live with quality := { live.quality with fine := ⟨3, 16384, 9, true, false⟩ } }, by decide⟩,
    ⟨{ live with quality := { live.quality with coarse := ⟨1, 128, 9, false, false⟩ } }, by decide⟩,
    { live with liu := { live.liu with tickPhase := 64 } }, by decide⟩

theorem wit_LineFaultEndsAll :
    (State.reset.liu.faultIn = false ∧ State.reset.liu.divisor = none) ∧
      live.liu.faultIn = false ∧ live.liu.divisor.isSome = true ∧ live.sender.phase = .idle ∧ live.sender.job = none ∧
        live.sender.oblig = none ∧ live.framer.state ≠ .assemble ∧
        (let j : Job := { job .message .keyboard with callSerial := some 7 }
         let s := holding (sending live .yielding j) (call .caller .active)
         s.tracker.call = some (call .caller .active) ∧ s.sender.phase = .yielding ∧ s.sender.job = some j ∧
           j.callSerial = some (call .caller .active).log.serial) ∧
        (holding live (call .called .judging)).tracker.call = some (call .called .judging) ∧
        ((framing live 416).framer.state = .assemble ∧ (framing live 416).framer.t = 415) ∧
        (framing live 415).framer.t < 415 ∧
        let s := framing live 416
        ({ s with framer := { s.framer with seenMark := true } } : State).framer.seenMark = true := by
  decide

theorem wit_FlagChangeRaisesQuality :
    ∃ s : State, s.quality.fine.divider < (if s.quality.fine.flag then 16384 else 4096) ∧
      s.quality.coarse.divider < (if s.quality.coarse.flag then 512 else 128) ∧ s.quality.fine.age = 8192 ∧
        s.quality.fine.flag = decide (s.quality.fine.counter = 0) ∧ s.listener.phase ≠ .text :=
  ⟨{ live with quality := { live.quality with fine := ⟨2, 0, 8192, false, false⟩ } }, by decide⟩

/-- R62: the Listener in TEXT of a sending of the held call, as LQ changes to FAIR. -/
theorem wit_FlagChangeRaisesQuality_doubt :
    let s : State :=
      { holding live (call .called .active) with
        quality := { live.quality with fine := ⟨2, 0, 8192, false, false⟩ }
        listener := { live.listener with phase := .text }, store := stored (entry .received .opened 5) }
    let u : State := { s with tracker := { s.tracker with belongs := .joined } }
    u.quality.fine.divider < 4096 ∧ u.quality.fine.age = 8192 ∧
      u.quality.fine.flag = decide (u.quality.fine.counter = 0) ∧ u.quality.lq = .good ∧
      ({ u.quality with fine := ⟨2, 0, 8192, true, false⟩ } : Quality).lq = .fair ∧ u.listener.phase = .text ∧
      u.tracker.belongs = .joined ∧ u.tracker.call = some (call .called .active) ∧
      u.store.entry 0 = some (entry .received .opened 5) ∧
      (entry .received .opened 5).serial = (call .called .active).log.serial := by decide

theorem wit_OnlyGuardStartsSending :
    (ready 40 (job .message .keyboard) 40).liu.drive ≠ .sending ∧
      (after (exec .guardReached (ready 40 (job .message .keyboard) 40))).map (fun t => t.liu.drive) = some .sending := by
  decide

/-- A request at the keyboard, and an outbound entry. -/
def asked (r : CallRequest) : State := { live with kbd := { live.kbd with request := some r } }
def outbound : State := { live with store := stored (entry .prepared .ready 5) }

theorem wit_SlotTakesWork :
    (live.loader.phase = .complete ∧ live.loader.config = some .valid ∧ live.loader.straps.rate.toNat ≤ 5 ∧
        live.liu.faultLatch = false ∧ live.sender.phase = .idle ∧ live.sender.job = none) ∧
      (∃ s : State, s.sender.oblig = some (job .answer .answerBack)) ∧
      ((asked ⟨other, none, false⟩).sender.oblig = none ∧
        (asked ⟨other, none, false⟩).kbd.request = some ⟨other, none, false⟩) ∧
      outbound.sender.oblig = none ∧ outbound.kbd.request.all CallRequest.taken = true ∧
        outbound.quality.coarse.flag = false ∧ outbound.store.offered = some 0 ∧
        outbound.store.entry 0 = some (entry .prepared .ready 5) :=
  ⟨by decide, ⟨{ live with sender := { live.sender with oblig := some (job .answer .answerBack) } }, rfl⟩, by decide,
    by decide⟩

theorem wit_GuardStartsSending :
    ((ready 4 { job .answer .answerBack with first := true } 4).liu.rest = true ∧
        (ready 4 { job .answer .answerBack with first := true } 4).restCount = 4 ∧
        (ready 4 { job .answer .answerBack with first := true } 4).liu.drive = .off ∧
        (ready 4 { job .answer .answerBack with first := true } 4).liu.divisor.isSome = true) ∧
      ((yielding 12).liu.rest = true ∧ (yielding 12).sender.phase = .yielding ∧ 12 ≤ (yielding 12).restCount ∧
        (yielding 12).sender.yld ≠ .begun) ∧
      (∃ s : State, s.liu.rest = true ∧ s.sender.job = some (job .message (.store (some 0))) ∧
        s.sender.phase = .waitGuard ∧ s.sender.guard ≤ s.restCount ∧ s.liu.drive ≠ .off ∧
          s.store.entry 0 = some (entry .prepared .sending 5)) ∧
        ∃ s : State, s.liu.rest = true ∧ s.sender.job = some (job .poll (.access [1, 2, 3, 4])) ∧
          s.sender.phase = .waitGuard ∧ s.sender.guard ≤ s.restCount ∧ s.liu.faultLatch = true :=
  ⟨by decide, by decide,
    ⟨{ ready 40 (job .message (.store (some 0))) 40 with
        liu := { (resting 40).liu with drive := .burst }, store := stored (entry .prepared .sending 5) }, by decide⟩,
    { ready 40 (job .poll (.access [1, 2, 3, 4])) 40 with liu := { (resting 40).liu with faultLatch := true } },
    by decide⟩

/-- A DELIVER that may start, on a line that takes no start. -/
def delivering : State :=
  { ready 4 { job .deliver (.store (some 0)) with first := true } 4 with
    liu := { (resting 4).liu with faultLatch := true }
    store := stored (entry .held .delivering 5)
    answer := { live.answer with coll := some ⟨7, 1, some 0, .serving⟩ } }

theorem wit_GuardStartsSending_deliver :
    delivering.liu.rest = true ∧ delivering.sender.job = some { job .deliver (.store (some 0)) with first := true } ∧
      delivering.sender.phase = .waitGuard ∧ delivering.sender.guard ≤ delivering.restCount ∧
      delivering.restCount ≤ 8 ∧ delivering.liu.faultLatch = true ∧
      delivering.answer.coll = some ⟨7, 1, some 0, .serving⟩ ∧
      delivering.store.entry 0 = some (entry .held .delivering 5) := by decide

theorem wit_ElementsFollow :
    ((driving live .mark).liu.drive = .sending ∧ (driving live .mark).liu.elem = some ⟨.mark, .p, 64⟩ ∧
        64 ≤ (driving live .mark).liu.elemIdx) ∧
      (∃ s : State, s.liu.drive = .sending ∧ s.liu.elem = some ⟨.space, .z, 64⟩ ∧ 64 ≤ s.liu.elemIdx ∧
        s.liu.endNow = true) ∧
        ∃ s : State, s.liu.drive = .sending ∧ s.liu.elem = some ⟨.space, .z, 64⟩ ∧ 64 ≤ s.liu.elemIdx ∧
          s.liu.endNow = false ∧ s.liu.elems = [.stop] :=
  ⟨by decide,
    ⟨{ live with liu := { live.liu with drive := .sending, elem := some ⟨.space, .z, 64⟩, elemIdx := 64, endNow := true } },
      by decide⟩,
    { live with liu := { live.liu with drive := .sending, elem := some ⟨.space, .z, 64⟩, elemIdx := 64, elems := [.stop] } },
    by decide⟩

/-- The Sender at the end of an element, in a phase. -/
def atEnd (phase : SenderPhase) (k : ElemKind) (f : Sender → Sender) : State :=
  let s := driving (sending live phase (job .message .keyboard)) k
  { s with sender := f s.sender }

theorem wit_LeadInWindowAndHeader :
    (let s := atEnd .lead .hold fun x => { x with count := 15 }
     s.liu.drive = .sending ∧ s.liu.elem = some ⟨.hold, .p, 64⟩ ∧ 64 ≤ s.liu.elemIdx ∧ s.liu.endNow = false ∧
       s.liu.elems = [] ∧ s.sender.count = 14 + 1 ∧ s.sender.phase = .lead) ∧
      (let s := atEnd .lead .hold id
       s.sender.count = 0 ∧ s.sender.phase = .lead ∧ s.loader.individual = some own ∧
         s.sender.job = some (job .message .keyboard)) ∧
      (let s := atEnd .header .stop fun x => { x with owed := [7] }
       s.sender.phase = .header ∧ s.sender.owed = [7]) ∧
      -- the header sent and taken, and not taken
      (let j : Job := { job .message .keyboard with callSerial := some 7 }
       let s := holding (atEnd .header .stop fun x => { x with job := some j }) (call .caller .active)
       let u : State := { s with tracker := { s.tracker with belongs := .joined } }
       u.sender.phase = .header ∧ u.sender.owed = [] ∧ u.tracker.belongs = .joined ∧
         u.tracker.call = some (call .caller .active) ∧ (call .caller .active).sKind = .message ∧
         u.sender.sendKind = .message ∧
         (call .caller .active).log.role = .caller ∧ u.sender.job = some j ∧ s.tracker.belongs ≠ .joined) ∧
      -- the window over, under Verify, with an access code, with a cell, with nothing typed, and with an empty entry
      (let s := atEnd .window .hold fun x => { x with job := some { job .message .keyboard with verify := true } }
       s.sender.phase = .window ∧ s.sender.count = 0 ∧ s.sender.sendKind = .message) ∧
      (let s := atEnd .window .hold fun x => { x with sendKind := .poll, job := some (job .poll (.access [1, 2, 3, 4])) }
       s.sender.phase = .window ∧ s.sender.count = 0 ∧ s.sender.sendKind ≠ .message ∧
         ([1, 2, 3, 4] : List Code)[s.sender.pos]? = some 1) ∧
      (let s := { atEnd .window .hold fun x => { x with job := some (job .message (.store (some 0))) } with
         store := stored (entry .prepared .sending 5) }
       s.store.entry 0 = some (entry .prepared .sending 5) ∧ s.sender.pos < 5) ∧
      (let s := atEnd .window .hold id
       s.sender.job = some (job .message .keyboard) ∧ s.kbd.queue = []) ∧
      (∀ n ∈ [(⟨some 1, some .high, .line, none⟩ : Entry), ⟨some 1, none, .line, none⟩, ⟨none, none, .line, none⟩],
        let s := { atEnd .window .hold id with kbd := { live.kbd with queue := [n] } }
        s.sender.job = some (job .message .keyboard) ∧ s.kbd.queue = [n] ∧ n.route = .line) ∧
      (let s := { atEnd .window .hold fun x => { x with job := some (job .message (.store (some 0))) } with
         store := stored (entry .prepared .sending 0) }
       s.store.entry 0 = some (entry .prepared .sending 0) ∧ 0 ≤ s.sender.pos) ∧
      -- an ANSWER's header taken
      let c : Call := { call .called .active with sKind := .answer }
      let s := holding (atEnd .header .stop fun x => { x with sendKind := .answer, job := some (job .answer .answerBack) }) c
      let u : State := { s with tracker := { s.tracker with belongs := .joined } }
      u.sender.phase = .header ∧ u.sender.owed = [] ∧ u.tracker.belongs = .joined ∧ u.tracker.call = some c ∧
        c.sKind = .answer ∧ u.sender.sendKind = .answer ∧ u.sender.job = some (job .answer .answerBack) ∧
        u.answer.answerBack[u.sender.pos]? = some 0 := by decide

/-- R46 (log 39): an own MESSAGE header that gave the role CALLER as a POLL header was taken; one that fitted a call as a
CONTINUE was not. -/
theorem test_misheard_header :
    let j : Job := { job .message .keyboard with callSerial := some 7 }
    let taken (c : Call) : Bool :=
      let s := holding (atEnd .header .stop fun x => { x with job := some j }) c
      ({ s with tracker := { s.tracker with belongs := .joined } } : State).headerTaken
    taken { call .caller .active with log := record .caller .poll, sKind := .poll } = true ∧
      taken { call .caller .active with sKind := .cont } = false := by decide

theorem wit_KeyboardTextHanded :
    (let s := atEnd .text .hold fun x => { x with holds := 1498 }
     s.liu.elem = some ⟨.hold, .p, 64⟩ ∧ s.sender.holds < 1499 ∧ s.kbd.queue = []) ∧
    (let s := { atEnd .text .stop id with kbd := { live.kbd with queue := [⟨none, none, .line, none⟩] } }
     s.kbd.queue = [⟨none, none, .line, none⟩]) ∧
    ∃ (s : State) (e : TxElem) (n : Entry), s.liu.drive = .sending ∧ s.liu.elem = some e ∧ e.kind ≠ .hold ∧
      e.len ≤ s.liu.elemIdx ∧ s.liu.endNow = false ∧ s.liu.elems = [] ∧ s.sender.phase = .text ∧
        s.sender.owed = [] ∧ s.sender.wru = false ∧ s.sender.job = some (job .message .keyboard) ∧
          s.kbd.queue = [n] ∧ n.route = .line ∧ n.code = some 1 ∧ n.kcase = some .high :=
  ⟨by decide, by decide, { atEnd .text .stop id with kbd := { live.kbd with queue := [⟨some 1, some .high, .line, none⟩] } }, _,
    ⟨some 1, some .high, .line, none⟩, by decide, rfl, by decide⟩

/-- The Sender at the end of a character, its job with a text source. -/
def atChar (phase : SenderPhase) (j : Job) (pos : Nat) (e : DirEntry) : State :=
  { atEnd phase .stop fun x => { x with job := some j, pos := pos } with store := stored e }

theorem wit_SendingCloses_sent :
    (let s := atChar .stopping (job .message .keyboard) 0 (entry .prepared .ready 5)
     s.sender.phase = .stopping ∧ s.sender.owed = [] ∧ s.sender.job = some (job .message .keyboard)) ∧
      (atChar .stopping (job .poll (.access [1, 2, 3, 4])) 4 (entry .prepared .ready 5)).sender.job =
        some (job .poll (.access [1, 2, 3, 4])) ∧
      (let s := atChar .stopping (job .message (.store (some 0))) 5 (entry .prepared .sending 5)
       s.sender.job = some (job .message (.store (some 0))) ∧ s.store.entry 0 = some (entry .prepared .sending 5)) ∧
      ∀ p : CollPhase,
        let s := atChar .stopping (job .deliver (.store (some 0))) 5 (entry .held .delivering 5)
        let u : State := { s with answer := { s.answer with coll := some ⟨7, 1, some 0, p⟩ } }
        u.sender.job = some (job .deliver (.store (some 0))) ∧ u.answer.coll = some ⟨7, 1, some 0, p⟩ ∧
          u.store.entry 0 = some (entry .held .delivering 5) :=
  ⟨by decide, by decide, by decide, fun p => ⟨rfl, rfl, rfl⟩⟩

theorem wit_SendingCloses_text :
    (let s := atChar .text (job .message (.store (some 0))) 4 (entry .prepared .sending 5)
     s.liu.drive = .sending ∧ s.liu.elem = some ⟨.stop, .p, 64⟩ ∧ 64 ≤ s.liu.elemIdx ∧ s.liu.endNow = false ∧
       s.liu.elems = [] ∧ s.sender.phase = .text ∧ s.sender.wru = false ∧ s.sender.owed = [] ∧
       s.sender.job = some (job .message (.store (some 0))) ∧
       s.store.entry 0 = some (entry .prepared .sending 5) ∧ s.sender.pos < (entry .prepared .sending 5).len ∧
       (Memory.read s.store.cells (cellAddr [0] s.sender.pos)).good = true) ∧
      (let s := atChar .text (job .message (.store (some 0))) 0 (entry .prepared .sending 5)
       let u : State := { s with store := { s.store with cells := [(0, ⟨1, false, true⟩)] } }
       (Memory.read u.store.cells (cellAddr [0] u.sender.pos)).good = false) ∧
      (entry .prepared .sending 5).len ≤
        (atChar .text (job .message (.store (some 0))) 5 (entry .prepared .sending 5)).sender.pos ∧
      (atChar .text (job .deliver (.store none)) 0 (entry .held .readyHeld 5)).sender.job =
        some (job .deliver (.store none)) ∧
      (let s := atChar .text (job .answer .answerBack) 19 (entry .held .readyHeld 5)
       s.answer.answerBack[s.sender.pos]? = some 0) ∧
      (let s := atChar .text (job .answer .answerBack) 20 (entry .held .readyHeld 5)
       s.answer.answerBack.length ≤ s.sender.pos ∧ (job .answer .answerBack).kind = .answer) ∧
      (let s := atChar .text (job .poll (.access [1, 2, 3, 4])) 3 (entry .held .readyHeld 5)
       ([1, 2, 3, 4] : List Code)[s.sender.pos]? = some 4) ∧
      ([1, 2, 3, 4] : List Code).length ≤
        (atChar .text (job .poll (.access [1, 2, 3, 4])) 4 (entry .held .readyHeld 5)).sender.pos ∧
      (atEnd .text .stop fun x => { x with owed := [22] }).sender.owed = [22] ∧
      (atEnd .text .hold fun x => { x with holds := 1498 }).sender.holds < 1499 := by decide +kernel

theorem wit_SendingCloses :
    ((atEnd .stopping .stop id).sender.phase = .stopping ∧ (atEnd .stopping .stop id).sender.owed = []) ∧
      ((atEnd .text .stop fun x => { x with wru := true }).sender.phase = .text ∧
        (atEnd .text .stop fun x => { x with wru := true }).sender.wru = true) ∧
      ((atEnd .stopping .stop fun x => { x with owed := [29] }).sender.owed = [29]) ∧
      (let s := atEnd .text .hold fun x => { x with holds := 1499 }
       s.sender.phase = .text ∧ s.sender.wru = false ∧ s.liu.elem = some ⟨.hold, .p, 64⟩ ∧ 1499 ≤ s.sender.holds) ∧
      (let s := atEnd .text .hold fun x => { x with holds := 1500 }
       s.sender.phase = .text ∧ s.liu.elemIdx ≠ 0) ∧
        ∃ s : State, s.liu.drive = .sending ∧ s.sender.phase = .text ∧ s.liu.elemIdx = 0 ∧ 1500 ≤ s.sender.holds ∧
          s.tracker.call = some (call .caller .active) ∧ s.sender.job.any (fun j => j.callSerial = some 7) = true :=
  ⟨by decide, by decide, by decide, by decide, by decide,
    { holding (sending live .text { job .message .keyboard with callSerial := some 7 }) (call .caller .active) with
      liu := { live.liu with drive := .sending, elem := some ⟨.hold, .p, 64⟩ }
      sender := { live.sender with phase := .text, holds := 1500, job := some { job .message .keyboard with callSerial := some 7 } } },
    by decide⟩

theorem wit_ObligationLapses :
    (let s := holding (yielding 9) (call .caller .holding)
     s.liu.rest = true ∧ s.sender.phase = .yielding ∧ s.sender.yld = .fresh ∧ 8 < s.restCount ∧
       s.tracker.call = some (call .caller .holding) ∧ (call .caller .holding).log.noAnswerBack = false) ∧
      (let s := ready 9 { job .answer .answerBack with first := true } 4
       s.liu.rest = true ∧ 8 < s.restCount ∧ s.sender.phase = .waitGuard ∧
         s.sender.job = some { job .answer .answerBack with first := true }) ∧
        ∃ s : State, s.liu.rest = true ∧ 8 < s.restCount ∧ s.sender.phase ≠ .waitGuard ∧
          s.sender.oblig = some { job .answer .answerBack with first := true } :=
  ⟨by decide, by decide,
    { resting 9 with sender := { live.sender with oblig := some { job .answer .answerBack with first := true } } },
    by decide⟩

/-- A watch that has run its samples. -/
def watching (p : SenderPhase) : State :=
  let s := holding (sending live .watchLine { job .message .keyboard with callSerial := some 7 }) (call .caller .active)
  { s with sender := { s.sender with stopPhase := p, watch := 768 } }

theorem wit_WatchLineClassified :
    ((watching .header).sender.phase = .watchLine ∧ 768 ≤ (watching .header).sender.watch ∧
        (watching .header).liu.rest = false ∧ (watching .header).liu.quiet < 768 ∧
        (watching .header).sender.stopPhase = .header ∧ (watching .header).sender.sendKind = .message) ∧
      (let s := watching .lead
       ({ s with sender := { s.sender with sendKind := .answer } } : State).sender.sendKind = .answer ∧
         s.sender.stopPhase = .lead) ∧
      (watching .text).sender.stopPhase = .text ∧ (watching .text).tracker.call = some (call .caller .active) ∧
        (watching .text).sender.job.any (fun j => j.callSerial = some 7) = true := by decide

/-- A watch of an outbound entry's MESSAGE, or of a DELIVER. -/
def watched (p : SenderPhase) (j : Job) (e : DirEntry) : State :=
  let s := watching p
  { s with sender := { s.sender with job := some j }, store := stored e }

theorem wit_WatchLineClassified_entry :
    (let j : Job := job .message (.store (some 0))
     (watched .text j (entry .prepared .sending 5)).sender.job = some j ∧ j.kind = .message ∧
       (watched .text j (entry .prepared .sending 5)).store.entry 0 = some (entry .prepared .sending 5) ∧
       (entry .prepared .sending 5).sending = none) ∧
      (let j : Job := { job .message (.store (some 0)) with callSerial := some 7 }
       let e : DirEntry := { entry .prepared .sending 5 with sending := some 7 }
       let s := watched .window j e
       StoreSound s.store ∧ s.tracker.call = some (call .caller .active) ∧
         j.callSerial = some (call .caller .active).log.serial ∧ s.store.entry 0 = some e ∧
         e.sending = some (call .caller .active).log.serial ∧
         ∀ k f, s.store.entry k = some f → f.kind = .prepared → f.state = .sending → f.sending = some 7 → k = 0) ∧
      (let s := watched .text (job .deliver (.store (some 0))) (entry .held .delivering 5)
       let u : State := { s with answer := { s.answer with coll := some ⟨7, 1, some 0, .closing⟩ } }
       u.answer.coll = some ⟨7, 1, some 0, .closing⟩ ∧ u.store.entry 0 = some (entry .held .delivering 5)) :=
  ⟨by decide, ⟨stored_sound _ rfl (by decide), rfl, rfl, rfl, rfl, fun k f h _ _ _ => stored_only _ k f h⟩, by decide⟩

/-- R143: the fourth failure makes an entry FAILED; a kept one is SENT at COMPLETE. -/
theorem test_settlement :
    settledEntry { entry .prepared .sending 5 with attempts := 2 } .aborted =
        some { entry .prepared .ready 5 with attempts := 3, retry := some 30720 } ∧
      settledEntry { entry .prepared .sending 5 with attempts := 3 } .aborted =
        some { entry .prepared .failed 5 with attempts := 4 } ∧
      settledEntry (entry .prepared .sending 5) .complete = none := by decide

theorem wit_HeaderOpensCall :
    (live.tracker.call = none ∧ live.roleOf other .message own = some .called ∧ live.answer.disp = none) ∧
      live.roleOf other .message .all = some .member ∧
      (let s := { live with tracker := { live.tracker with lastSerial := 9999 } }
       s.tracker.call = none ∧ s.roleOf other .message own = some .called) ∧
      (let s := sending live .header (job .message (.store (some 0)))
       s.tracker.call = none ∧ s.roleOf own .message other = some .caller ∧
         s.sender.job = some (job .message (.store (some 0))) ∧ s.roleOf own .poll other = some .caller) ∧
      (stored (entry .prepared .sending 5)).entry 0 = some (entry .prepared .sending 5) ∧
      (stored (entry .held .delivering 5)).entry 0 = some (entry .held .delivering 5) ∧
      live.roleOf other .poll own = some .called ∧
      ((holding live (call .caller .judging)).tracker.call = some (call .caller .judging) ∧
        (holding live (call .caller .judging)).roleOf other .message own = some .called) ∧
      (live.loader.config = some .valid ∧ live.loader.individual = some own) ∧
      (sending live .header (job .message .keyboard)).sender.phase = .header ∧
        ¬(other = own ∧ live.sender.phase = .header) ∧ other ≠ own ∧ other ≠ .all ∧ other ∉ live.loader.groups := by
  decide

/-- Fitting headers: a CONTINUE of the origin, an ANSWER and a DELIVER of the station called; the last at the collector
too, with the spool mark set or not, and no header that fits a call which is not in JUDGING. -/
theorem wit_HeaderOpensCall_following :
    ((holding live (call .called .judging)).tracker.call = some (call .called .judging) ∧
        (call .called .judging).state = .judging ∧ (call .called .judging).log.origin = other ∧
        (call .called .judging).log.dest = own ∧ (call .called .active).state ≠ .judging) ∧
      (sending (holding live (call .caller .judging)) .yielding (job .message .keyboard)).sender.phase = .yielding ∧
      (let s := { holding live { call .caller .judging with log := record .caller .poll } with
         store := stored (entry .held .readyHeld 5) }
       StoreSound s.store ∧ (call .caller .judging).log.role = .caller ∧ s.answer.callSpool = false ∧
         s.directPossible = true ∧ s.spoolPossible = true) ∧
      (let s := { live with printer := { live.printer with paper := ⟨true, 0⟩ } }
       s.directPossible = false ∧ s.spoolPossible = true) ∧
      (let s := { live with
         printer := { live.printer with paper := ⟨true, 0⟩ }, store := { live.store with free := [] } }
       s.directPossible = false ∧ s.spoolPossible = false) :=
  ⟨by decide, by decide, ⟨stored_sound _ rfl (by decide), by decide, by decide, by decide +kernel, by decide +kernel⟩,
    by decide +kernel, by decide +kernel⟩

/-- The reply window of a MESSAGE to this station, with `n` elements counted. -/
def window (n : Nat) (given : Bool) (d : DispRecord) : State :=
  let s := disposed (holding live (call .called .active)) d
  { s with
    listener := { s.listener with phase := .header, hdr := .valid other .message own, window := n, refusalGiven := given }
    tracker := { s.tracker with belongs := .joined }, store := shelved.store }

theorem wit_WindowDecides :
    (let s := window 4 false (disp .awaited)
     s.listener.inWindow = true ∧ 4 ≤ s.listener.window ∧ s.listener.refusalGiven = false ∧
       s.tracker.belongs = .joined ∧ s.answer.disp = some (disp .awaited) ∧ s.directPossible = false ∧
       s.spoolPossible = true ∧ s.kbd.attended.pos = true) ∧
      (let s := window 4 false (disp .awaited)
       let u : State :=
         { s with
           kbd := { s.kbd with attended := ⟨false, false, 0⟩ }
           quality := { s.quality with coarse := { s.quality.coarse with flag := true } } }
       u.kbd.attended.pos = false ∧ u.quality.coarse.flag = true ∧ u.burstAllowed = true) ∧
      (let s := window 24 true (disp .awaited)
       s.listener.inWindow = true ∧ 24 ≤ s.listener.window ∧ s.listener.refusalGiven = true ∧
         s.tracker.belongs = .joined ∧ s.answer.disp = some (disp .awaited) ∧ (disp .awaited).state = .awaited) ∧
        StoreSound (window 24 true (disp .awaited)).store ∧
      (let s := window 24 true (disp .awaited)
       s.tracker.call = some (call .called .active) ∧ (call .called .active).sKind = .message ∧
         (call .called .active).textStarted = false) ∧
      -- a claim of the switch on a free punch, a claim wanted on one without tape, and no claim
      (let s := window 24 true (disp .awaited)
       let u : State :=
         { s with
           kbd := { s.kbd with punchSw := ⟨.on, .on, 0⟩ }
           punch := { s.punch with claim := some .notWanted, queue := List.replicate 25 ⟨0, .trailer, .call 6⟩ } }
       u.punch.claim = some .notWanted ∧ u.kbd.punchSw.pos = .on ∧ u.punch.own = none ∧ u.punch.low.on = false ∧
         u.punch.out.on = false ∧ u.punch.active = none ∧ u.punch.next = none) ∧
      (let s := window 24 true (disp .awaited)
       let u : State :=
         { s with
           kbd := { s.kbd with punchSw := ⟨.auto, .auto, 0⟩ }
           punch := { s.punch with claim := some .wanted, low := ⟨true, 0⟩ } }
       u.punch.claim = some .wanted ∧ u.kbd.punchSw.pos ≠ .off ∧ u.punch.low.on = true) ∧
      (window 24 true (disp .awaited)).punch.claim = none :=
  ⟨by decide, by decide, by decide, shelved_sound, by decide, by decide, by decide, by decide⟩

/-- LQ FAIR, and GOOD, as the Listener enters TEXT. -/
theorem wit_WindowDecides_doubt :
    (let s := window 24 true (disp .awaited)
     let u : State := { s with quality := { s.quality with fine := { s.quality.fine with flag := true } } }
     u.quality.fine.flag = true ∧ u.tracker.belongs = .joined ∧ u.tracker.call = some (call .called .active)) ∧
      (window 24 true (disp .awaited)).quality.fine.flag = false ∧
      (window 24 true (disp .awaited)).quality.coarse.flag = false := by decide

/-- A store whose one OPEN entry is full and whose other blocks a RECEIVED entry holds, which may be reclaimed where
it is PRINTED. -/
def crowded (k : EntryKind) (p : PrintState) : Store :=
  { Store.powerOn with
    free := [], high := true, order := [0, 1]
    slots :=
      some (entry k .opened 256) ::
        some { entry .received .closed 5 with print := p, chain := (List.range 64).tail } ::
          List.replicate 30 none }

theorem crowded_entry (k : EntryKind) (p : PrintState) (i : Nat) :
    (crowded k p).entry i =
      if i = 0 then some (entry k .opened 256)
      else if i = 1 then some { entry .received .closed 5 with print := p, chain := (List.range 64).tail }
      else none := by
  rcases i with _ | _ | i
  · rfl
  · rfl
  · show (List.replicate 30 none).getD i none = none
    rw [List.getD_eq_getElem?_getD, List.getElem?_replicate]
    split <;> rfl

theorem crowded_sound (k : EntryKind) (p : PrintState) : StoreSound (crowded k p) :=
  { canonical := rfl, slots := rfl, orderNodup := by show [0, 1].Nodup; decide
    orderPresent := fun i => by
      rw [crowded_entry]
      by_cases h : i = 0 <;> by_cases k : i = 1 <;> simp [crowded, h, k]
    blocks := by
      show ([] ++ ([0] ++ ((List.range 64).tail ++ (List.replicate 30 none).flatMap _))).Perm (List.range 64)
      decide +kernel
    freeRising := List.Pairwise.nil
    chains := fun i f h => by
      rw [crowded_entry] at h
      by_cases h0 : i = 0
      · rw [if_pos h0] at h; cases h; exact ⟨by show 1 ≤ 1; decide, by show 256 ≤ 256 * 1; decide⟩
      · rw [if_neg h0] at h
        by_cases h1 : i = 1
        · rw [if_pos h1] at h; cases h; exact ⟨by show 1 ≤ 63; decide, by show 5 ≤ 256 * 63; decide⟩
        · rw [if_neg h1] at h; cases h
    high := rfl }

theorem crowded_held (k : EntryKind) (j : Nat) (f : DirEntry) (h : (crowded k .waiting).entry j = some f) :
    ¬(f.kind = .received ∧ f.state = .closed ∧ f.print = .printed ∧ f.kept = false) := by
  rw [crowded_entry] at h
  by_cases h0 : j = 0
  · rw [if_pos h0] at h; cases h; exact fun c => nomatch c.2.1
  · rw [if_neg h0] at h
    by_cases h1 : j = 1
    · rw [if_pos h1] at h; cases h; exact fun c => nomatch c.2.2.1
    · rw [if_neg h1] at h; cases h

/-- The line in HUNT at a mark of the reply window, `lock` samples after the lock point. -/
def hunted (prev : Level) (lock : Nat) : State :=
  let s := window 3 false (disp .awaited)
  { s with framer := { s.framer with state := .hunt, prev := prev, lock := some lock } }

/-- The stop sample of a character in the reply window. -/
def early (given : Bool) (d : DispRecord) : State :=
  let s := framing (window 20 given d) 416
  { s with framer := { s.framer with seenMark := true } }

theorem wit_WindowDecides_early :
    -- a change of level, the 64th sample of one mark, and the sample before it
    (let s := hunted .n 5
     s.liu.divisor.isSome = true ∧ s.liu.faultIn = false ∧ s.liu.rest = false ∧ s.framer.state = .hunt ∧
       s.listener.inWindow = true ∧ Level.p ≠ s.framer.prev) ∧
      (hunted .p 63).framer.lock.any (fun n => decide (63 ≤ n)) = true ∧
      (hunted .p 62).framer.lock.any (fun n => decide (63 ≤ n)) = false ∧
      -- a character that ends the window, printing, spooling, losing and refusing
      (let s := early true (disp .awaited)
       s.liu.divisor.isSome = true ∧ s.liu.faultIn = false ∧ s.liu.rest = false ∧ s.framer.state = .assemble ∧
         s.framer.t = 415 ∧ s.framer.seenMark = true ∧ s.listener.inWindow = true ∧ s.tracker.belongs = .joined ∧
         s.tracker.call = some (call .called .active) ∧ (call .called .active).sKind = .message ∧
         s.answer.disp = some (disp .awaited) ∧ (disp .awaited).deliver = false ∧ StoreSound s.store ∧
         s.listener.refusalGiven = true) ∧
      (let s := early true (disp .awaited)
       let u : State := { s with store := stored { entry .received .closed 5 with print := .printed } }
       StoreSound u.store ∧ u.directPossible = true ∧ u.printer.queue.length ≤ 61 ∧ u.printer.right = .free) ∧
      (let s := early true { disp .awaited with spoolMark := true }
       s.answer.disp = some { disp .awaited with spoolMark := true } ∧ s.spoolPossible = true) ∧
      (let s := early true (disp .awaited)
       let u : State := { s with store := crowded .received .waiting }
       StoreSound u.store ∧ u.directPossible = false ∧ u.spoolPossible = false) ∧
      (let s := early false (disp .awaited)
       let u : State := { s with store := crowded .received .waiting }
       u.listener.refusalGiven = false ∧ (call .called .active).log.role = .called ∧ u.directPossible = false ∧
         u.spoolPossible = false) :=
  ⟨by decide, by decide, by decide,
    ⟨by decide, by decide, by decide, by decide, by decide, by decide, by decide, by decide, by decide, by decide,
      by decide, by decide, shelved_sound, by decide⟩,
    ⟨stored_sound _ rfl (by decide), by decide +kernel, by decide, by decide⟩, ⟨by decide, by decide +kernel⟩,
    ⟨crowded_sound _ _, by decide +kernel, by decide +kernel⟩,
    ⟨by decide, by decide, by decide +kernel, by decide +kernel⟩⟩

/-- The stop sample of a text code of a call. -/
def texting (d : DispRecord) : State :=
  let s := disposed (holding (framing live 416) (call .called .active)) d
  { s with
    listener := { s.listener with phase := .text }, tracker := { s.tracker with belongs := .joined }
    printer := { s.printer with right := .line 7 }, store := stored (entry .received .opened 255) }

theorem wit_TextCodeReachesItsPlace :
    (let s := texting (disp .direct)
     s.liu.divisor.isSome = true ∧ s.liu.faultIn = false ∧ s.liu.rest = false ∧ s.framer.state = .assemble ∧
       s.framer.t = 415 ∧ s.listener.phase = .text ∧ s.tracker.belongs = .joined ∧
       s.tracker.call = some (call .called .active) ∧ (call .called .active).sKind = .message ∧
       s.answer.disp = some (disp .direct) ∧ s.printer.right = .line (call .called .active).log.serial ∧
       s.printer.queue.length ≤ 62) ∧
      (texting (disp .lost)).answer.disp = some (disp .lost) ∧
      let s := texting { disp .spool with entry := some 0 }
      s.answer.disp = some { disp .spool with entry := some 0 } ∧
        s.store.entry 0 = some (entry .received .opened 255) ∧ (entry .received .opened 255).len < 256 * 1 ∧
        Memory.wf s.store.cells = true := by decide

/-- A text code of a call of another kind than a MESSAGE's. -/
def hearing (role : Role) (kind : CallKind) (sk : SendKind) (c : Code) : State :=
  let g : Call := { call role .active with log := { record role kind with answeredBy := some [] }, sKind := sk }
  let s := holding (framing live 416) g
  { s with
    framer := { s.framer with code := c, seenMark := true }, tracker := { s.tracker with belongs := .joined }
    listener := { s.listener with phase := .text, textCase := .high } }

theorem wit_TextCodeReachesItsPlace_kinds :
    ∀ sk : SendKind,
      let s := hearing .called .message sk 22
      s.liu.divisor.isSome = true ∧ s.liu.faultIn = false ∧ s.liu.rest = false ∧ s.framer.state = .assemble ∧
        s.framer.t = 415 ∧ s.framer.seenMark = true ∧ s.listener.phase = .text ∧ s.tracker.belongs = .joined ∧
        s.tracker.call.map (fun c => (c.sKind, c.log.role)) = some (sk, .called) ∧ s.listener.textCase = .high ∧
        s.framer.code = 22 :=
  fun _ => ⟨rfl, rfl, rfl, rfl, rfl, rfl, rfl, rfl, rfl, rfl, rfl⟩

/-- R66, R162, R164: a WRU of a CONTINUE, a code of a POLL and one of an ANSWER. -/
theorem test_text_of_other_kinds :
    ((after (exec (.sample true false) (hearing .called .message .cont 22))).map fun t => t.answer.pending) = some true ∧
      ((after (exec (.sample false false) (hearing .called .poll .poll 3))).map fun t => t.answer.poll) =
        some [(3, true)] ∧
      ((after (exec (.sample true false) (hearing .caller .message .answer 22))).map fun t =>
        (t.answer.pending, t.tracker.call.map fun c => c.log.answeredBy)) = some (false, some (some [22])) := by
  decide +kernel

theorem wit_TextCodeReachesItsPlace_full :
    (let s := texting { disp .direct with lastJoin := some .high, taken := true }
     let u : State := { s with printer := { s.printer with queue := List.replicate 63 (.code 1 false .low .line) } }
     ¬(u.printer.queue.length ≤ 62) ∧ StoreSound u.store ∧ u.spoolPossible = true ∧ u.burstAllowed = true) ∧
      (let s := texting (disp .direct)
       let u : State := { s with store := { s.store with free := [] }, printer := { s.printer with right := .free } }
       u.printer.right ≠ .line 7 ∧ u.spoolPossible = false) ∧
      (let e : DirEntry := entry .received .opened 256
       let s := texting { disp .spool with entry := some 0 }
       let u : State := { s with store := { stored e with free := [] } }
       u.store.entry 0 = some e ∧ e.len = 256 * e.chain.length ∧ u.store.free = [] ∧
         ∀ j f, u.store.entry j = some f →
           ¬(f.kind = .received ∧ f.state = .closed ∧ f.print = .printed ∧ f.kept = false)) ∧
      64 ≤ ({ entry .received .opened 16384 with chain := List.range 64 } : DirEntry).chain.length :=
  ⟨⟨by decide, stored_sound _ rfl (by decide), by decide +kernel, by decide⟩, by decide +kernel,
    ⟨rfl, by decide, rfl, fun j f h => by
      have : (stored (entry .received .opened 256)).entry j = some f := h
      rw [stored_entry] at this
      by_cases h0 : j = 0
      · rw [if_pos h0] at this; cases this; decide
      · rw [if_neg h0] at this; cases this⟩, by decide⟩

theorem wit_TextCodeReachesItsPlace_growth :
    -- a framing error's stop, and a BELL code
    (let s := texting (disp .direct)
     let u : State := { s with framer := { s.framer with seenMark := true } }
     u.framer.seenMark = true ∧ u.printer.right = .line 7) ∧
      (let s := texting (disp .direct)
       let u : State :=
         { s with framer := { s.framer with code := 25 }, listener := { s.listener with textCase := .high } }
       u.listener.textCase = .high ∧ u.framer.code = 25) ∧
      -- the first code of a CONTINUED entry
      (let d : DispRecord := { disp .spool with entry := some 0, contFirst := true, lastJoin := some .high }
       let u : State := { texting d with store := stored (entry .received .opened 0) }
       u.answer.disp = some d ∧ u.store.entry 0 = some (entry .received .opened 0) ∧
         Memory.wf u.store.cells = true) ∧
      -- growth by a free block, and by a reclaimed one
      (let u : State := { texting { disp .spool with entry := some 0 } with store := stored (entry .received .opened 256) }
       StoreSound u.store ∧ u.store.entry 0 = some (entry .received .opened 256) ∧
         u.store.free = 1 :: (List.range 64).drop 2) ∧
      (let u : State := { texting { disp .spool with entry := some 0 } with store := crowded .received .printed }
       StoreSound u.store ∧ u.store.entry 0 = some (entry .received .opened 256) ∧ u.store.free = [] ∧
         (u.store.order.find? fun j => (u.store.entry j).any fun f =>
           decide (f.kind = .received ∧ f.state = .closed ∧ f.print = .printed ∧ f.kept = false)) = some 1) :=
  ⟨by decide, by decide, by decide, ⟨stored_sound _ rfl (by decide), rfl, by decide +kernel⟩,
    ⟨crowded_sound _ _, rfl, rfl, by decide +kernel⟩⟩

/-- A code of the call with the punch owned by it. -/
def punching (w : Ownership) (n : Nat) : State :=
  let s := texting (disp .lost)
  { s with punch := { s.punch with own := some w, queue := List.replicate n ⟨1, .text, .call 7⟩ } }

theorem wit_TextCodeReachesItsPlace_punch :
    ¬((texting (disp .lost)).listener.textCase = .high ∧ (texting (disp .lost)).framer.code = 25) ∧
      (let w : Ownership := ⟨.call 7, .text, 0, 0, false, 0⟩
       (punching w 31).punch.own = some w ∧ (punching w 31).punch.queue.length < 32 ∧
         (punching w 31).punch.active = none ∧ (punching w 31).punch.next = none ∧
         32 ≤ (punching w 32).punch.queue.length) ∧
      (let w : Ownership := ⟨.call 7, .leader, 3, 0, false, 0⟩
       (punching w 32).punch.own = some w ∧ w.leader ≠ 0) ∧
      (let w : Ownership := ⟨.call 7, .text, 0, 0, true, 0⟩
       (punching w 5).punch.own = some w ∧ w.cut = true) ∧
      (texting (disp .lost)).punch.own = none := by decide

/-- A text code that is passed on: a MESSAGE's, an ANSWER's, a CONTINUE's, and a DELIVER's at the collector; and a BELL
at a punch that the call owns. -/
theorem wit_TextCodeReachesItsPlace_passed :
    (∀ x ∈ [(Role.called, CallKind.message, SendKind.message), (.caller, .message, .answer),
        (.called, .message, .cont), (.caller, .poll, .deliver)],
      let s := disposed (hearing x.1 x.2.1 x.2.2 25) (disp .direct)
      s.liu.divisor.isSome = true ∧ s.liu.faultIn = false ∧ s.liu.rest = false ∧ s.framer.state = .assemble ∧
        s.framer.t = 415 ∧ s.listener.phase = .text ∧ s.listener.textCase = .high ∧ s.tracker.belongs = .joined ∧
        s.tracker.call.map (fun c => (c.sKind, c.log.role)) = some (x.2.2, x.1) ∧ x.2.2 ≠ .poll ∧
        ¬(x.2.2 = .deliver ∧ x.1 = .called) ∧ s.answer.disp = some (disp .direct) ∧ s.framer.code = 25) ∧
      (let s := hearing .caller .message .answer 25
       let u : State := { s with punch := { s.punch with own := some ⟨.call 7, .text, 0, 0, false, 0⟩ } }
       u.answer.disp = none ∧ u.punch.own = some ⟨.call 7, .text, 0, 0, false, 0⟩ ∧ u.callSerial = 7) ∧
      (let u : State := (punching ⟨.call 7, .text, 0, 0, false, 0⟩ 5).takeEvent ⟨0, none⟩ ⟨4, some 7, none⟩
       u.tracker.call.map (fun c => c.log.serial) = some 7) ∧
      (live.takeEvent ⟨0, none⟩ ⟨4, some 7, none⟩).tracker.call = none := by decide +kernel

/-- R118: the TEXT rows of a call with a PUNCH-STOP at BELL-RECEIVED: its BELL is punched where it is taken first, and
dropped where the stop is; with no PUNCH-STOP it is punched. -/
theorem test_bell_and_punch_stop :
    let s : State := punching ⟨.call 7, .text, 0, 0, false, 0⟩ 0
    let stop : State := { s with links := { s.links with table := some [⟨4, 0, 2, true⟩] } }
    let plain : State := { s with links := { s.links with table := some [] } }
    let texts (t : State) : List Code := ((punchRows t.punch).filter fun r => r.kind = .text).map Row.code
    texts ((stop.punchCode 25).takeEvent ⟨0, none⟩ ⟨4, some 7, none⟩) = [25] ∧
      texts (stop.takeEvent ⟨0, none⟩ ⟨4, some 7, some 25⟩) = [] ∧
      texts (plain.takeEvent ⟨0, none⟩ ⟨4, some 7, some 25⟩) = [25] := by decide +kernel

theorem wit_HoldLimitEndsCall :
    (let s := holding (resting 24) (call .caller .holding)
     s.liu.rest = true ∧ 24 ≤ s.restCount ∧ s.tracker.call = some (call .caller .holding) ∧
       (call .caller .holding).state = .holding) ∧
      let c : Call := { call .caller .holding with eom := true, log := record .caller .poll, deliveries := 1 }
      (holding (resting 24) c).tracker.call = some c ∧ c.log.role = .caller ∧ c.eom = true ∧ 0 < c.deliveries := by
  decide

theorem wit_HoldLimitEndsCall_receivers :
    (let e : DirEntry := { entry .prepared .sending 5 with sending := some 7, attempts := 3 }
     let s := { holding (resting 24) (call .caller .holding) with store := stored e }
     StoreSound s.store ∧ s.store.entry 0 = some e ∧ e.kind = .prepared ∧ e.state = .sending ∧
       e.sending = some (call .caller .holding).log.serial ∧
       (∀ k f, s.store.entry k = some f → f.kind = .prepared → f.state = .sending → f.sending = some 7 → k = 0) ∧
       s.answer.coll = none) ∧
      (let s := { holding (resting 24) (call .called .holding) with store := stored (entry .received .opened 5) }
       s.store.entry 0 = some (entry .received .opened 5) ∧
         (entry .received .opened 5).serial = (call .called .holding).log.serial ∧ s.answer.disp = none ∧
         s.answer.coll = none) ∧
      (let w : Ownership := ⟨.call 7, .leader, 4, 0, false, 0⟩
       let s := punching w 32
       s.punch.own = some w ∧ w.tag = .call (call .called .active).log.serial ∧ w.phase ≠ .trailer ∧
         s.punch.active = none ∧ s.punch.next = none) ∧
      (holding (resting 24) (call .called .holding)).punch.own = none ∧
      ∀ p : CollPhase,
        let s := holding (resting 24) (call .called .holding)
        let u : State := { s with answer := { s.answer with coll := some ⟨7, 8, none, p⟩ } }
        u.answer.coll = some ⟨7, 8, none, p⟩ ∧ u.sender.phase ≠ .yielding :=
  ⟨⟨stored_sound _ rfl (by decide), rfl, rfl, rfl, rfl, fun k f h _ _ _ => stored_only _ k f h, rfl⟩, by decide, by decide,
    by decide, fun p => ⟨rfl, fun h => nomatch h⟩⟩

/-- The end of a POLL's sending at the polled station, and a collection between deliveries. -/
def polled (codes : List (Code × Bool)) : State :=
  let c : Call := { call .called .active with log := record .called .poll, sKind := .poll, eom := true }
  { quieted .active with
    tracker := { live.tracker with lastSerial := 7, call := some c }, answer := { live.answer with poll := codes } }

def collecting (given : Nat) (e : DirEntry) : State :=
  let c : Call := { call .called .active with log := record .called .poll, sKind := .deliver }
  { quieted .active with
    tracker := { live.tracker with lastSerial := 7, call := some c }, store := stored e
    answer := { live.answer with coll := some ⟨7, given, none, .between⟩ } }

theorem wit_PollIsJudged_rest :
    (let s := polled [(1, false), (2, false), (3, false), (4, false), (29, false)]
     s.liu.divisor.isSome = true ∧ s.liu.faultIn = false ∧ 768 ≤ s.liu.quiet ∧ s.liu.rest = false ∧
       s.tracker.call.any (fun c => c.state = .active && c.sKind = .poll && c.log.kind = .poll && c.log.role = .called &&
         c.eom) = true ∧
       s.answer.pending = false ∧ s.sender.phase ≠ .watchLine ∧ s.answer.disp = none) ∧
      (polled [(1, true)]).answer.poll = [(1, true)] ∧
      (let s := collecting 7 (entry .held .readyHeld 5)
       s.tracker.call.any (fun c => c.sKind = .deliver) = true ∧ s.quality.coarse.flag = false ∧ nextHeld s.store = some 0 ∧
         s.store.entry 0 = some (entry .held .readyHeld 5) ∧ s.sender.phase ≠ .waitGuard ∧
         s.answer.coll = some ⟨7, 7, none, .between⟩) ∧
      (collecting 8 (entry .held .readyHeld 5)).answer.coll = some ⟨7, 8, none, .between⟩ ∧
      nextHeld (collecting 1 (entry .held .delivered 5)).store = none := by decide

/-- R164, R165: the right code with EOM begins the collection; a code with an error mark is not judged. -/
theorem test_poll_judged_at_rest :
    ((after (exec .restRecognised (polled [(1, false), (2, false), (3, false), (4, false), (29, false)]))).map
        fun t => t.answer.coll.map Collection.given) = some (some 1) ∧
      ((after (exec .restRecognised (polled [(1, false), (2, false), (3, false), (4, true), (29, false)]))).map
        fun t => (t.answer.coll, t.answer.wrong)) = some (none, 0) := by decide +kernel

theorem wit_PollIsJudged :
    (live.answer.access = some [1, 2, 3, 4] ∧ live.answer.facility = .opened ∧ live.quality.coarse.flag = false ∧
        (holding live (call .called .holding)).tracker.call = some (call .called .holding) ∧
        live.sender.phase ≠ .waitGuard) ∧
      (let s := sending (holding live (call .called .holding)) .waitGuard (job .message .keyboard)
       s.sender.phase = .waitGuard ∧ s.sender.job = some (job .message .keyboard) ∧ s.answer.facility = .opened) ∧
      (∀ a b c d : Code, ([1, 2] : List Code) ≠ [a, b, c, d, 29] ∧ ([1, 2] : List Code) ≠ [a, b, c, d, 17, 29]) ∧
        ∃ s : State, s.answer.access = some [1, 2, 3, 4] ∧ s.answer.facility ≠ .opened :=
  ⟨by decide, by decide, fun a b c d => by simp, { live with answer := { live.answer with facility := .locked } },
    by decide⟩

theorem wit_TickReadsRow :
    State.reset.loader.phase = .inReset ∧ live.loader.phase ≠ .inReset ∧ live.kbd.scanWait = 0 ∧
      (∃ s : State, s.loader.phase ≠ .inReset ∧ s.kbd.scanWait ≠ 0) ∧ live.kbd.attended.pos = true ∧
        live.kbd.keys[63]? = some ⟨false, 0⟩ ∧ live.kbd.fns[5]? = some ⟨false, 0⟩ ∧ live.kbd.row ≠ 7 ∧
        live.kbd.firstScan = true ∧
      (∃ s : State, s.kbd.row = 7 ∧ s.kbd.firstScan = false) ∧
      -- the six conditions of R168, and activity
      (let s : State := { live with kbd := { live.kbd with attended := ⟨false, false, 0⟩ } }
       s.kbd.attended.pos = false ∧ s.tracker.call = none ∧ s.printer.motor = .stopped ∧ s.punch.own = none ∧
         s.punch.queue = [] ∧ s.punch.active = none ∧ s.punch.next = none ∧ s.kbd.queue = [] ∧ s.store.order = []) ∧
      (live.kbd.keys[0]? = some ⟨false, 0⟩ ∧ 0 / 8 = live.kbd.row ∧
        ({ quietTick with cols := 1 } : TickInputs).cols.getLsbD (0 % 8) ≠ (⟨false, 0⟩ : Key).down) :=
  ⟨by decide, by decide, by decide, ⟨{ live with kbd := { live.kbd with scanWait := 7 } }, by decide⟩, by decide,
    by decide, by decide, by decide, by decide, ⟨{ live with kbd := { live.kbd with row := 7, firstScan := false } },
    by decide⟩, by decide, by decide⟩

/-- The keyboard's ownership of the punch, with `n` rows in the queue. -/
def typing (w : Ownership) (n : Nat) : Punch :=
  { Punch.reset with own := some w, queue := List.replicate n ⟨1, .text, .keyboard⟩, kbCase := .low }

theorem wit_MatrixKeysAct_punch :
    ((∃ p : Punch, p.own = none ∧ p.low.on = true) ∧ (∃ p : Punch, p.own = none ∧ p.out.on = true)) ∧
      ((typing ⟨.call 7, .text, 0, 0, false, 0⟩ 0).own.map Ownership.tag = some (.call 7) ∧
        (typing ⟨.keyboard, .trailer, 0, 3, false, 0⟩ 32).own.map Ownership.phase = some .trailer) ∧
      (Punch.reset.own = none ∧ Punch.reset.low.on = false ∧ Punch.reset.out.on = false ∧ Punch.reset.active = none ∧
        Punch.reset.next = none) ∧
      -- both rows of a shift pair find a place, and one of them would
      (∀ n ∈ [0, 30, 31],
        let p := typing ⟨.keyboard, .text, 0, 0, false, 9⟩ n
        p.own = some ⟨.keyboard, .text, 0, 0, false, 9⟩ ∧ p.kbCase = .low ∧ p.queue.length = n ∧ p.active = none ∧
          p.next = none) ∧
      (typing ⟨.keyboard, .leader, 3, 0, false, 9⟩ 32).own = some ⟨.keyboard, .leader, 3, 0, false, 9⟩ ∧
      (typing ⟨.keyboard, .text, 0, 0, true, 9⟩ 5).own = some ⟨.keyboard, .text, 0, 0, true, 9⟩ :=
  ⟨⟨⟨{ Punch.reset with low := ⟨true, 0⟩ }, rfl, rfl⟩, ⟨{ Punch.reset with out := ⟨true, 0⟩ }, rfl, rfl⟩⟩, by decide,
    by decide, by decide, by decide, by decide⟩

/-- R81, R121: the shift and its code join together or not at all. -/
theorem test_shift_pair_cut :
    ((typing ⟨.keyboard, .text, 0, 0, false, 9⟩ 31).offerKeyboard false 1 (some .high)).own =
        some ⟨.keyboard, .text, 0, 0, true, 0⟩ ∧
      ((typing ⟨.keyboard, .text, 0, 0, false, 9⟩ 3).offerKeyboard false 1 (some .high)).kbCase = .high := by
  decide +kernel

/-- The keyboard in a set-up with the key 1 (low case) at its down event. -/
def typed (m : ModePos) (u : Setup) : State := keyed (keyboard m u) 1

theorem wit_MatrixKeysAct :
    ((typed .line (.dest1 .line)).kbd.keys[(1 : BitVec 6).toNat]? = some ⟨false, 4⟩ ∧
        (typed .line (.dest1 .line)).kbd.othersDown 1 < 2) ∧
      (∀ q : BitVec 6, q.toNat / 8 = (1 : BitVec 6).toNat / 8 → q.toNat < (1 : BitVec 6).toNat →
        (typed .line (.dest1 .line)).kbd.keys[q.toNat]? ≠ some ⟨false, 4⟩) ∧
      ((keyed live 61).kbd.keys[(61 : BitVec 6).toNat]? = some ⟨false, 4⟩ ∧
        (∃ s : State, s.kbd.keys[(9 : BitVec 6).toNat]? = some ⟨false, 4⟩ ∧ 2 ≤ s.kbd.othersDown 9)) ∧
      ((typed .line (.dest2 .line 12)).kbd.setup = .dest2 .line 12 ∧
        (typed .line (.dest2 .collect 0)).kbd.setup = .dest2 .collect 0 ∧
        (typed .prepare (.dest2 .prepare 12)).kbd.setup = .dest2 .prepare 12 ∧
        (typed .prepare (.dest2 .prepare 12)).store.slots[31]? = some none ∧
        (typed .prepare (.dest2 .prepare 12)).store.free ≠ [] ∧
        (keyed (keyboard .prepare (.dest2 .prepare 0)) 32).kbd.keys[(32 : BitVec 6).toNat]? = some ⟨false, 4⟩ ∧
        (32 : BitVec 6).setWidth 5 = (0 : Code)) ∧
      ((typed .line (.code other [1, 2, 3])).kbd.setup = .code other [1, 2, 3] ∧
        (typed .line (.openLine other)).kbd.mode.pos = .line ∧ (typed .line (.openLine other)).localLoop = false ∧
        (typed .loc .ready).kbd.mode.pos = .loc ∧ (typed .loc .ready).kbd.locked = false) ∧
      ((typed .prepare (.openPrepare other 0)).kbd.mode.pos = .prepare ∧
        (typed .prepare (.openPrepare other 0)).kbd.locked = false ∧
        (typed .line .ready).kbd.mode.pos ≠ .loc ∧ (typed .line .ready).kbd.setup = .ready) :=
  ⟨by decide, by decide,
    ⟨by decide,
      { live with kbd := { live.kbd with keys := ((live.kbd.keys.set 9 ⟨false, 4⟩).set 10 ⟨true, 0⟩).set 20 ⟨true, 0⟩ } },
      by decide⟩,
    by decide, by decide, by decide⟩

theorem wit_SequenceKeysAct :
    (let s := pressed (keyboard .line .ready) 0
     s.kbd.fns[0]? = some ⟨false, 4⟩ ∧ s.kbd.mode.pos = .line ∧ s.kbd.request = none ∧ s.kbd.setup = .ready) ∧
      (let s := pressed (keyboard .prepare (.dest1 .prepare)) 0
       s.kbd.fns[0]? = some ⟨false, 4⟩ ∧ s.kbd.mode.pos = .prepare ∧ s.kbd.prep = none) ∧
      (pressed (keyboard .loc .ready) 0).kbd.mode.pos = .loc ∧
      (pressed (keyboard .line .ready) 1).kbd.fns[1]? = some ⟨false, 4⟩ ∧
      (let s := pressed (keyboard .line (.openLine other)) 2
       s.kbd.fns[2]? = some ⟨false, 4⟩ ∧ s.kbd.locked = false ∧ s.localLoop = false) ∧
      (let s := pressed (keyboard .prepare (.openPrepare other 0)) 2
       s.kbd.fns[2]? = some ⟨false, 4⟩ ∧ s.kbd.locked = false ∧ s.kbd.mode.pos ≠ .loc) ∧
      (pressed (keyboard .line (.dest1 .line)) 2).kbd.setup ≠ .ready ∧
      ∃ s : State, s.kbd.fns[2]? = some ⟨false, 4⟩ ∧ s.kbd.setup = .openLine other ∧ s.kbd.locked = true :=
  ⟨by decide, by decide, by decide, by decide, by decide, by decide, by decide,
    { pressed (keyboard .line (.openLine other)) 2 with
      kbd := { (pressed (keyboard .line (.openLine other)) 2).kbd with locked := true } }, by decide⟩

/-- The CANCEL key in MODE LINE with a call request. -/
def cancelling (taken : Bool) : State :=
  let s := pressed (keyboard .line (.openLine other)) 5
  { s with kbd := { s.kbd with request := some ⟨other, none, taken⟩ } }

theorem wit_HereIsAndCancelAct_states :
    ((pressed (keyboard .line (.openPrepare other 0)) 4).kbd.setup = .openPrepare other 0 ∧
        (pressed (keyboard .prepare (.openLine other)) 4).kbd.setup = .openLine other) ∧
      ((pressed (keyboard .loc (.dest1 .line)) 4).kbd.setup = .dest1 .line ∧
        (pressed (keyboard .line (.code other [1])) 4).kbd.setup = .code other [1]) ∧
      ((pressed (keyboard .loc (.openPrepare other 0)) 4).kbd.mode.pos = .loc ∧
        (pressed (keyboard .loc (.openPrepare other 0)) 4).kbd.setup = .openPrepare other 0) ∧
      let s := sending (cancelling true) .waitGuard (job .poll (.access [1, 2, 3, 4]))
      s.kbd.fns[5]? = some ⟨false, 4⟩ ∧ s.kbd.request = some ⟨other, none, true⟩ ∧ s.sender.phase = .waitGuard ∧
        s.sender.job = some (job .poll (.access [1, 2, 3, 4])) := by decide

theorem wit_HereIsAndCancelAct :
    (let s := pressed (keyboard .line .ready) 4
     s.kbd.fns[4]? = some ⟨false, 4⟩ ∧ s.kbd.setup = .ready ∧ s.kbd.mode.pos ≠ .loc) ∧
      (let s := pressed (keyboard .line (.openLine other)) 4
       s.kbd.mode.pos = .line ∧ s.kbd.setup = .openLine other ∧ s.kbd.locked = false ∧ s.kbd.queue.length ≤ 12) ∧
      (∃ s : State, s.kbd.fns[4]? = some ⟨false, 4⟩ ∧ s.kbd.mode.pos = .loc ∧ s.kbd.setup = .ready ∧
        s.kbd.locked = false ∧ s.kbd.queue.length = 13) ∧
      ((pressed (keyboard .loc .ready) 5).kbd.fns[5]? = some ⟨false, 4⟩ ∧ (pressed (keyboard .loc .ready) 5).kbd.mode.pos = .loc) ∧
      ((cancelling false).kbd.mode.pos = .line ∧ (cancelling false).kbd.request = some ⟨other, none, false⟩) ∧
      (let s := sending (cancelling true) .waitGuard (job .message .keyboard)
       s.kbd.request = some ⟨other, none, true⟩ ∧ s.sender.phase = .waitGuard ∧
         s.sender.job = some (job .message .keyboard)) ∧
      ((cancelling true).sender.phase ≠ .waitGuard ∧ (cancelling true).localLoop = false) ∧
      (let s := cancelling true
       let u : State := { s with kbd := { s.kbd with request := some ⟨other, some [1, 2, 3, 4], true⟩ } }
       u.kbd.request = some ⟨other, some [1, 2, 3, 4], true⟩ ∧ u.sender.phase ≠ .waitGuard) ∧
      (let s := { pressed (keyboard .prepare (.openPrepare other 0)) 4 with store := stored (entry .prepared .opened 5) }
       s.kbd.mode.pos = .prepare ∧ s.kbd.setup = .openPrepare other 0 ∧ s.store.canGrow 0 20 = true) ∧
        ∃ s : State, s.kbd.fns[5]? = some ⟨false, 4⟩ ∧ s.kbd.mode.pos = .prepare ∧ s.kbd.prep = some 0 ∧
          s.store.entry 0 = some (entry .prepared .opened 5) :=
  ⟨by decide, by decide,
    ⟨{ pressed (keyboard .loc .ready) 4 with
        kbd := { (pressed (keyboard .loc .ready) 4).kbd with queue := List.replicate 13 ⟨some 1, none, .loc, none⟩ } },
      by decide⟩,
    by decide, by decide, by decide, by decide, by decide, by decide +kernel,
    { pressed (keyboard .prepare .ready) 5 with
      kbd := { (pressed (keyboard .prepare .ready) 5).kbd with prep := some 0 }
      store := stored (entry .prepared .opened 5) }, by decide⟩

theorem wit_BreakKeyActs :
    (let s := pressed (holding (sending live .text { job .message .keyboard with callSerial := some 7 })
        (call .caller .active)) 3
     s.kbd.fns[3]? = some ⟨false, 4⟩ ∧ s.sender.phase = .text ∧ s.tracker.call = some (call .caller .active) ∧
       s.sender.job = some { job .message .keyboard with callSerial := some 7 }) ∧
      (let s := pressed (holding (yielding 5) (call .caller .holding)) 3
       s.sender.phase = .yielding ∧ s.tracker.call = some (call .caller .holding) ∧
         (call .caller .holding).log.role = .caller) ∧
      (let s := pressed { sending live .lead (job .message (.store (some 0))) with
          store := stored (entry .prepared .sending 5) } 3
       s.sender.phase = .lead ∧ s.sender.job = some (job .message (.store (some 0))) ∧
         s.store.entry 0 = some (entry .prepared .sending 5) ∧ (entry .prepared .sending 5).sending = none) ∧
      keyboardJob (job .message .keyboard) ∧ ¬keyboardJob (job .message (.store (some 0))) ∧
      let s := pressed (holding live (call .called .active)) 3
      s.kbd.fns[3]? = some ⟨false, 4⟩ ∧ s.sender.phase ≠ .yielding ∧ s.tracker.call ≠ none ∧ s.liu.rest = false ∧
        s.liu.drive = .off ∧ s.liu.divisor ≠ none ∧ s.loader.phase = .complete ∧ s.liu.faultLatch = false :=
  ⟨by decide, by decide, by decide, ⟨Or.inl rfl, Or.inl rfl⟩, (by rintro ⟨_, h | ⟨_, h⟩⟩ <;> cases h),
    by decide⟩

theorem wit_SwitchesTakePositions :
    (∃ s : State, s.kbd.keys[(63 : BitVec 6).toNat]? = some ⟨true, 4⟩) ∧
      (∃ s : State, s.kbd.fns[fnIdx .cancel]? = some ⟨true, 4⟩) ∧ (∃ s : State, s.kbd.attended.count = 4) ∧
      (∃ s : State, s.kbd.mode.count = 4 ∧ s.kbd.setup = .openPrepare other 0 ∧ s.kbd.prep = some 0) ∧
        ∃ s : State, s.kbd.punchSw.count = 4 ∧ s.kbd.punchSw.cand = .off ∧
          s.tracker.call = some (call .called .active) ∧
            s.punch.own = some ⟨.call 7, .text, 0, 0, false, 0⟩ :=
  ⟨⟨{ live with kbd := { live.kbd with keys := live.kbd.keys.set 63 ⟨true, 4⟩ } }, by decide⟩,
    ⟨{ live with kbd := { live.kbd with fns := live.kbd.fns.set 5 ⟨true, 4⟩ } }, by decide⟩,
    ⟨{ live with kbd := { live.kbd with attended := ⟨true, false, 4⟩ } }, by decide⟩,
    ⟨{ live with kbd := { live.kbd with mode := ⟨.prepare, .line, 4⟩, setup := .openPrepare other 0, prep := some 0 } },
      by decide⟩,
    { holding live (call .called .active) with
      kbd := { live.kbd with punchSw := ⟨.on, .off, 4⟩ }
      punch := { live.punch with own := some ⟨.call 7, .text, 0, 0, false, 0⟩ } }, by decide⟩

theorem wit_CountsRunOut :
    (∃ s : State, s.kbd.lockTimer = some 0 ∧ s.printer.right = .loc ∧ 2048 ≤ s.printer.localIdle) ∧
      (∃ s : State, s.store.entry (0 : BitVec 5).toNat = some { entry .prepared .ready 5 with retry := some 0 }) ∧
        ∃ s : State, s.links.alarm = some 0 ∧ s.answer.watch = false ∧ 61440 ≤ s.answer.watchCount :=
  ⟨⟨{ live with kbd := { live.kbd with lockTimer := some 0 }, printer := { live.printer with right := .loc, localIdle := 2048 } },
      by decide⟩,
    ⟨{ live with store := stored { entry .prepared .ready 5 with retry := some 0 } }, by decide⟩,
    { live with links := { live.links with alarm := some 0 }, answer := { live.answer with watchCount := 61440 } },
    by decide⟩

/-- The prepare writer with an entry to take. -/
def preparing (n : Entry) : State :=
  { live with
    kbd := { live.kbd with queue := [n], prep := some 0 }, store := stored (entry .prepared .opened 255) }

theorem wit_PrepareEntryWritten :
    (let n : Entry := ⟨some 1, some .low, .prepare, none⟩
     (preparing n).loader.phase = .complete ∧ (preparing n).kbd.queue = [n] ∧ n.route = .prepare ∧
       (preparing n).kbd.prep = some 0 ∧ (preparing n).store.entry 0 = some (entry .prepared .opened 255) ∧
       n.kcase = some (preparing n).kbd.prepCase ∧ Memory.wf (preparing n).store.cells = true) ∧
      let n : Entry := ⟨none, none, .prepare, none⟩
      (preparing n).kbd.queue = [n] ∧ n.code = none ∧ (entry .prepared .opened 255).kind ≠ .received := by decide

theorem wit_PrepareEntryWritten_shift :
    -- the shift that the case needs, with two cells free, and with one on a store without room
    (let n : Entry := ⟨some 1, some .high, .prepare, none⟩
     let s := { preparing n with store := stored (entry .prepared .opened 254) }
     s.kbd.queue = [n] ∧ n.kcase = some .high ∧ Case.high ≠ s.kbd.prepCase ∧
       s.store.entry 0 = some (entry .prepared .opened 254) ∧ Memory.wf s.store.cells = true) ∧
      (let n : Entry := ⟨some 1, some .high, .prepare, none⟩
       let s := preparing n
       let u : State := { s with store := { s.store with free := [] } }
       u.kbd.queue = [n] ∧ u.store.entry 0 = some (entry .prepared .opened 255) ∧ u.store.free = [] ∧
         Memory.wf u.store.cells = true ∧
         ∀ j f, u.store.entry j = some f →
           ¬(f.kind = .received ∧ f.state = .closed ∧ f.print = .printed ∧ f.kept = false)) ∧
      -- a full entry that grows by a free block, by a reclaimed one, and not
      (let n : Entry := ⟨some 1, none, .prepare, none⟩
       let s := { preparing n with store := stored (entry .prepared .opened 256) }
       StoreSound s.store ∧ s.store.entry 0 = some (entry .prepared .opened 256) ∧
         s.store.free = 1 :: (List.range 64).drop 2) ∧
      (let n : Entry := ⟨some 1, none, .prepare, none⟩
       let s := { preparing n with store := crowded .prepared .printed }
       StoreSound s.store ∧ s.store.entry 0 = some (entry .prepared .opened 256) ∧ s.store.free = [] ∧
         (s.store.order.find? fun j => (s.store.entry j).any fun f =>
           decide (f.kind = .received ∧ f.state = .closed ∧ f.print = .printed ∧ f.kept = false)) = some 1) ∧
      (let n : Entry := ⟨some 1, none, .prepare, none⟩
       let s := { preparing n with store := crowded .prepared .waiting }
       StoreSound s.store ∧ s.store.entry 0 = some (entry .prepared .opened 256) ∧ s.store.free = [] ∧
         ∀ j f, s.store.entry j = some f →
           ¬(f.kind = .received ∧ f.state = .closed ∧ f.print = .printed ∧ f.kept = false)) :=
  ⟨by decide,
    ⟨by decide, rfl, rfl, by decide, fun j f h => by
      have : (stored (entry .prepared .opened 255)).entry j = some f := h
      rw [stored_entry] at this
      by_cases h0 : j = 0
      · rw [if_pos h0] at this; cases this; decide
      · rw [if_neg h0] at this; cases this⟩,
    ⟨stored_sound _ rfl (by decide), rfl, by decide +kernel⟩, ⟨crowded_sound _ _, rfl, rfl, by decide +kernel⟩,
    ⟨crowded_sound _ _, rfl, rfl, crowded_held _⟩⟩

/-- A store of one full entry with 17 blocks free. -/
def brink (e : DirEntry) : Store :=
  { Store.powerOn with
    free := (List.range 64).drop 47, order := [0]
    slots := some { e with chain := List.range 47, len := 256 * 47 } :: List.replicate 31 none }

theorem brink_sound (e : DirEntry) : StoreSound (brink e) :=
  have at_ (i : Nat) : (brink e).entry i = if i = 0 then some { e with chain := List.range 47, len := 256 * 47 } else none := by
    rcases i with _ | i
    · rfl
    · show (List.replicate 31 none).getD i none = none
      rw [List.getD_eq_getElem?_getD, List.getElem?_replicate]
      split <;> rfl
  { canonical := rfl, slots := rfl, orderNodup := by show [0].Nodup; decide
    orderPresent := fun i => by rw [at_]; by_cases h : i = 0 <;> simp [brink, h]
    blocks := by
      show ((List.range 64).drop 47 ++ (List.range 47 ++ (List.replicate 31 none).flatMap _)).Perm (List.range 64)
      decide +kernel
    freeRising := by show ((List.range 64).drop 47).Pairwise (· < ·); decide +kernel
    chains := fun i f h => by
      rw [at_] at h
      by_cases h0 : i = 0
      · rw [if_pos h0] at h; cases h; exact ⟨by show 1 ≤ 47; decide, by show 256 * 47 ≤ 256 * 47; decide⟩
      · rw [if_neg h0] at h; cases h
    high := rfl }

/-- STORE-HIGH at a growth to 16, and at each allocation of the writers; one that leaves 17 or fewer than 16. -/
theorem wit_PrepareEntryWritten_high :
    (let n : Entry := ⟨some 1, none, .prepare, none⟩
     let s := { preparing n with store := brink (entry .prepared .opened 0) }
     StoreSound s.store ∧ s.store.free = 47 :: (List.range 64).drop 48 ∧ ((List.range 64).drop 48).length = 16 ∧
       s.store.high = false ∧ (s.writePrepared 0 [1]).store.high = true) ∧
      (let s := { texting (disp .direct) with store := brink (entry .received .opened 0) }
       StoreSound s.store ∧ s.store.high = false ∧ (s.trySpool (disp .awaited)).1.store.high = true ∧
         (s.spoolCell { disp .spool with entry := some 0 } 1 false true).store.high = true ∧
         (s.printFull (disp .direct) 1 false).store.high = true ∧ s.notReady.store.high = true ∧
         (s.createPrepared other).store.high = true) ∧
      (let s := { texting (disp .direct) with store := stored (entry .received .opened 0) }
       StoreSound s.store ∧ s.notReady.store.free.length ≠ 16) :=
  ⟨⟨brink_sound _, by decide +kernel, by decide, rfl, by decide +kernel⟩,
    ⟨brink_sound _, rfl, by decide +kernel, by decide +kernel, by decide +kernel, by decide +kernel, by decide +kernel⟩,
    stored_sound _ rfl (by decide), by decide +kernel⟩

/-- A LOCAL entry at the head. -/
def localEntry : Entry := ⟨some 1, some .low, .loc, some .low⟩
def localTyped (r : Right) : State :=
  { live with kbd := { live.kbd with queue := [localEntry] }, printer := { live.printer with right := r } }

/-- An entry to drain, the printer's queue holding `n` items. -/
def draining (r : Right) (n : Nat) (drain : Option Nat) : State :=
  { live with
    printer :=
      { live.printer with right := r, drain := drain, queue := List.replicate n (.code 1 false .low .loc) }
    store := stored (entry .received .closed 5) }

theorem wit_ProducersAreGranted :
    (let s := localTyped .free
     s.loader.phase = .complete ∧ s.printer.right = .free ∧ s.store.printList = [] ∧ s.answer.disp = none ∧
       s.kbd.queue = [localEntry] ∧ localEntry.route = .loc) ∧
      ((localTyped .loc).printer.right = .loc ∧ (localTyped .loc).printer.queue.length ≤ 62) ∧
      State.reset.loader.phase ≠ .complete ∧
      (let s := draining .free 62 none
       s.loader.phase = .complete ∧ s.printer.right = .free ∧ s.store.printList = [0] ∧ s.store.entry 0 = some (entry .received .closed 5) ∧
         s.printer.paper.on = false ∧ s.printer.fault.on = false ∧ s.printer.motor ≠ .fault ∧
         s.printer.queue.length ≤ 62 ∧ s.printer.drain ≠ some 0) ∧
        (draining .free 0 (some 0)).printer.drain = some 0 ∧
        -- a resumed grant, a cell of bad parity before the print position
        (let s := draining .free 0 (some 0)
         let u : State :=
           { s with
             printer := { s.printer with resume := true }
             store := { stored { entry .received .closed 5 with printPos := 2 } with cells := [(1, ⟨17, false, false⟩)] } }
         u.loader.phase = .complete ∧ u.printer.right = .free ∧ u.store.printList = [0] ∧ u.printer.drain = some 0 ∧
           u.printer.resume = true ∧ (u.store.entry 0).map DirEntry.printPos = some 2 ∧
           (Memory.read u.store.cells (cellAddr [0] 1)).good = false) := by decide

/-- An entry of five cells being drained, its printer changed. -/
def drained (e : DirEntry) (f : Printer → Printer) : State :=
  let s := draining (.drain 0) 0 (some 0)
  { s with printer := f s.printer, store := stored e }

theorem wit_DrainReads :
    (let s := draining (.drain 0) 62 (some 0)
     s.loader.phase = .complete ∧ s.printer.right = .drain 0 ∧ s.printer.drain = some 0 ∧
       s.printer.endJoined = false ∧ s.store.entry 0 = some (entry .received .closed 5) ∧ s.printer.readPos < 5 ∧
       s.printer.queue.length ≤ 62 ∧
       (Memory.read s.store.cells (cellAddr [0] s.printer.readPos)).good = true) ∧
      (∃ s : State, s.loader.phase = .complete ∧ s.printer.right = .drain 0 ∧ s.printer.readPos < 5 ∧
        s.store.entry 0 = some (entry .received .closed 5) ∧ (Memory.read s.store.cells (cellAddr [0] 0)).good = false) ∧
      (∃ s : State, s.loader.phase = .complete ∧ s.printer.right = .drain 0 ∧
        s.store.entry 0 = some (entry .received .closed 5) ∧ s.printer.readPos = 5 ∧ s.printer.queue.length = 63 ∧
          s.printer.formedPos ≠ 5) ∧
      (let s := drained (entry .received .closed 5) fun p => { p with readPos := 5, formedPos := 5 }
       s.printer.readPos = 5 ∧ s.printer.formedPos = 5 ∧ s.printer.active = none ∧ s.printer.next = none) ∧
      let s := drained (entry .received .closed 0) fun p => { p with queue := [.start (.drain 0) false] }
      s.printer.readPos = 0 ∧ PItem.start (.drain 0) false ∈ s.printer.queue :=
  ⟨by decide,
    ⟨{ draining (.drain 0) 0 (some 0) with
        store := { stored (entry .received .closed 5) with cells := [(0, ⟨1, false, true⟩)] } }, by decide⟩,
    ⟨{ draining (.drain 0) 63 (some 0) with
        printer := { (draining (.drain 0) 63 (some 0)).printer with readPos := 5 } }, by decide⟩, by decide, by decide⟩

theorem wit_CommandsAreFormed :
    (draining .loc 1 none).loader.phase = .complete ∧ (draining .loc 1 none).printer.active = none ∧
      (draining .loc 1 none).printer.homing = [] ∧ (draining .loc 1 none).printer.part = [] ∧
      (draining .loc 1 none).printer.ring = false ∧
      itemCommands 1 69 false (.code 1 false .low .loc) = [.strike 1] ∧
      itemCommands 1 69 false (.code 0 false .low .loc) = [] ∧
      ({ live with printer := { live.printer with motor := .running } } : State).printer.motor = .running ∧ State.reset.loader.phase ≠ .complete ∧
      (∃ s : State, s.loader.phase = .complete ∧ s.printer.paper.on = true ∧ s.printer.homing = []) ∧
      (∃ s : State, s.loader.phase = .complete ∧ s.printer.paper.on = true ∧ s.printer.homing = [.ret 69, .feed] ∧
        s.printer.next = none) ∧
        ∃ s : State, s.loader.phase = .complete ∧ s.printer.homing = [] ∧ s.printer.part = [.feed] ∧
          s.printer.queue = [.start (.line 7) false] :=
  ⟨by decide, by decide, by decide, by decide, by decide, by decide, by decide, rfl, by decide,
    ⟨{ live with printer := { live.printer with paper := ⟨true, 0⟩ } }, by decide⟩,
    ⟨{ live with printer := { live.printer with homing := [.ret 69, .feed], paper := ⟨true, 0⟩ } }, by decide⟩,
    { live with printer := { live.printer with part := [.feed], queue := [.start (.line 7) false] } }, by decide⟩

theorem wit_DoneMovesUp :
    (let s := drained (entry .received .closed 5) fun p =>
       { p with
         active := some ⟨.feed, true, some 4⟩, next := some ⟨.bell, false, none⟩, motor := .running, endJoined := true
         formedPos := 5 }
     s.printer.active = some ⟨.feed, true, some 4⟩ ∧ s.printer.motor = .running ∧ s.printer.drain = some 0 ∧
       s.store.entry 0 = some (entry .received .closed 5) ∧ s.printer.next = some ⟨.bell, false, none⟩ ∧
       s.printer.endJoined = true ∧ s.printer.formedPos = 5) ∧
      (let s := drained (entry .received .closed 5) fun p =>
         { p with active := some ⟨.feed, true, some 3⟩, next := some ⟨.strike 1, false, some 4⟩ }
       s.printer.next = some ⟨.strike 1, false, some 4⟩ ∧ (4 : Nat) ≠ 5) ∧
      live.printer.active = none := by decide

theorem wit_PaperAndFaultHold :
    (∃ s : State, s.printer.paper = ⟨false, 4⟩) ∧ (∃ s : State, s.printer.paper = ⟨true, 4⟩) ∧
      (∃ s : State, s.printer.fault = ⟨false, 4⟩ ∧ s.printer.drain = some 0 ∧
        s.store.entry 0 = some (entry .received .closed 5)) ∧
      (let s := texting { disp .direct with taken := true }
       s.answer.disp = some { disp .direct with taken := true } ∧ s.tracker.call = some (call .called .active) ∧
         StoreSound s.store ∧ s.spoolPossible = true ∧ s.burstAllowed = true) ∧
      ({ texting (disp .direct) with store := { live.store with free := [] } } : State).spoolPossible = false ∧
      -- a switch-over at PAPER OUT that takes the seventeenth free block
      (let s : State :=
        { texting (disp .direct) with
          store := { live.store with free := List.range 17 }
          printer := { live.printer with paper := ⟨false, 4⟩ } }
       s.printer.paper = ⟨false, 4⟩ ∧ raisedBy State.paperOut s = [⟨6, none, none⟩, ⟨13, none, none⟩]) ∧
        ∃ s : State, s.printer.fault = ⟨true, 4⟩ ∧ s.printer.motor = .stopped ∧ s.printer.paper.on = false ∧
          s.printer.active = none ∧ s.printer.next = none :=
  ⟨⟨{ live with printer := { live.printer with paper := ⟨false, 4⟩ } }, rfl⟩,
    ⟨{ live with printer := { live.printer with paper := ⟨true, 4⟩ } }, rfl⟩,
    ⟨{ draining (.drain 0) 3 (some 0) with
        printer := { (draining (.drain 0) 3 (some 0)).printer with fault := ⟨false, 4⟩ } }, by decide⟩,
    ⟨by decide, by decide, stored_sound _ rfl (by decide), by decide +kernel, by decide⟩, by decide +kernel,
    by decide +kernel, { live with printer := { live.printer with fault := ⟨true, 4⟩ } }, by decide⟩

theorem wit_MotorSteps :
    (∃ s : State, s.printer.motor = .starting ∧ s.printer.atSpeed = true ∧ s.printer.homeAtSpeed = true ∧
      s.printer.fault.on = false ∧ s.printer.active = none ∧ s.printer.next = none) ∧
      (∃ s : State, s.printer.motor = .running ∧ s.printer.atSpeed = false ∧ s.answer.disp = none) ∧
      (∃ s : State, s.printer.motor = .starting ∧ s.printer.atSpeed = false ∧ 3072 ≤ s.printer.startCount) ∧
      (let s := texting (disp .direct)
       s.answer.disp = some (disp .direct) ∧ s.tracker.call = some (call .called .active) ∧ StoreSound s.store) ∧
      -- items held by PAPER OUT at the end of the run-on, and items that nothing holds at a stop request
      (let s := localTyped .loc
       let u : State :=
         { s with
           printer :=
             { s.printer with motor := .running, runOut := true, paper := ⟨true, 0⟩, queue := [.code 1 false .low .loc] } }
       u.printer.motor = .running ∧ u.printer.runOut = true ∧ u.printer.paper.on = true ∧ u.printer.queue ≠ []) ∧
      (let s := localTyped .loc
       let u : State :=
         { s with
           printer :=
             { s.printer with motor := .running, stopReq := true, stopMet := true, queue := [.code 1 false .low .loc] } }
       u.printer.motor = .running ∧ u.printer.stopReq = true ∧ u.printer.stopMet = true ∧ u.printer.paper.on = false ∧
         u.printer.fault.on = false ∧ u.printer.queue ≠ []) ∧
      -- an item joins in each state of the motor, and a LOCAL entry with the motor STOPPED
      (∀ m : Motor, ({ Printer.reset with motor := m } : Printer).queue.length < 64 ∧
        ({ Printer.reset with motor := m } : Printer).paper.on = false) ∧
      (let s := localTyped .loc
       s.loader.phase = .complete ∧ s.printer.right = .loc ∧ s.printer.queue.length ≤ 62 ∧ s.kbd.queue = [localEntry] ∧
         localEntry.route = .loc ∧ localEntry.code = some 1 ∧ s.printer.motor = .stopped ∧ s.printer.paper.on = false ∧
         s.printer.fault.on = false) ∧
        ∃ s : State, s.printer.motor = .running ∧ s.printer.runOut = true ∧ s.printer.stopReq = true ∧
          s.printer.stopMet = true ∧ s.printer.queue = [] ∧ s.printer.active = none ∧ s.printer.homeAtSpeed = false :=
  ⟨⟨{ live with printer := { live.printer with motor := .starting, atSpeed := true, homeAtSpeed := true } }, by decide⟩,
    ⟨{ live with printer := { live.printer with motor := .running } }, by decide⟩,
    ⟨{ live with printer := { live.printer with motor := .starting, startCount := 3072 } }, by decide⟩,
    ⟨by decide, by decide, stored_sound _ rfl (by decide)⟩, by decide, by decide, fun _ => ⟨by show 0 < 64; decide, rfl⟩, by decide,
    { live with printer := { live.printer with motor := .running, runOut := true, stopReq := true, stopMet := true } },
    by decide⟩

theorem wit_PunchSteps :
    (∃ s : State, s.punch.active = some ⟨21, .text, .call 7⟩ ∧ s.punch.strobe = true) ∧ live.punch.strobe = false ∧
    (∃ s : State, s.punch.own = some ⟨.keyboard, .text, 0, 0, false, 2048⟩ ∧ s.punch.queue.length ≤ 20 ∧
      (s.punch.active = none → s.punch.next = none)) ∧
      live.punch.active = none ∧
      (∃ s : State, s.punch.active = some ⟨1, .text, .call 7⟩ ∧ s.punch.own = some ⟨.call 7, .text, 0, 0, false, 0⟩ ∧
        s.punch.next ≠ none) ∧
      (∀ p : RowKind, p ≠ .text → ∃ s : State, s.punch.active = some ⟨1, .text, .call 7⟩ ∧ s.punch.queue.length = 32 ∧
        s.punch.own = some ⟨.call 7, p, 12, 12, false, 0⟩) ∧
      (∃ s : State, s.punch.low = ⟨false, 4⟩ ∧ s.punch.out = ⟨true, 4⟩) ∧ (∃ s : State, s.punch.low = ⟨true, 4⟩) ∧
        ∃ s : State, s.punch.out = ⟨false, 4⟩ ∧ s.tracker.call = some (call .called .active) ∧
          s.punch.own = some ⟨.call 7, .text, 0, 0, false, 0⟩ :=
  ⟨⟨{ live with punch := { live.punch with active := some ⟨21, .text, .call 7⟩, strobe := true } }, by decide⟩, by decide,
    ⟨{ live with punch := { live.punch with own := some ⟨.keyboard, .text, 0, 0, false, 2048⟩ } }, by decide⟩, by decide,
    ⟨{ live with
        punch :=
          { live.punch with
            own := some ⟨.call 7, .text, 0, 0, false, 0⟩, active := some ⟨1, .text, .call 7⟩
            next := some ⟨2, .text, .call 7⟩ } }, by decide⟩,
    fun p _ =>
      ⟨{ live with
          punch :=
            { live.punch with
              own := some ⟨.call 7, p, 12, 12, false, 0⟩, active := some ⟨1, .text, .call 7⟩
              queue := List.replicate 32 ⟨0, .text, .call 7⟩ } }, rfl, rfl, rfl⟩,
    ⟨{ live with punch := { live.punch with low := ⟨false, 4⟩, out := ⟨true, 4⟩ } }, by decide⟩,
    ⟨{ live with punch := { live.punch with low := ⟨true, 4⟩ } }, by decide⟩,
    { holding live (call .called .active) with
      punch := { live.punch with own := some ⟨.call 7, .text, 0, 0, false, 0⟩, out := ⟨false, 4⟩ } }, by decide⟩

/-- A call with a disposition record in a state, the PUNCH switch at ON. -/
def linked (d : DispState) (started : Bool) : State :=
  let s := texting (disp d)
  { s with
    kbd := { s.kbd with punchSw := ⟨.on, .on, 0⟩ }
    tracker := { s.tracker with call := some { call .called .active with textStarted := started } } }

theorem wit_LinksActInOrder :
    (live.links.table = some defaultLinks ∧ live.tracker.call = none) ∧
      -- PUNCH-CALL: no text yet, a free punch, and one without tape
      ((linked .direct false).kbd.punchSw.pos ≠ .off ∧ (linked .direct false).punch.claim ≠ some .made ∧
        (linked .direct false).tracker.call.any Call.textStarted = false) ∧
      (let s := linked .direct true
       s.tracker.call.any Call.textStarted = true ∧ s.punch.own = none ∧ s.punch.low.on = false ∧
         s.punch.out.on = false ∧ s.punch.active = none) ∧
      (let s := linked .direct true
       let u : State := { s with punch := { s.punch with low := ⟨true, 0⟩ } }
       u.punch.low.on = true ∧ u.punch.claim ≠ some .made) ∧
      live.kbd.punchSw.pos = .off ∧
      -- PUNCH-STOP: the call owns the punch, in LEADER with the queue full, and no ownership
      (let w : Ownership := ⟨.call 7, .leader, 4, 0, false, 0⟩
       (punching w 32).punch.own = some w ∧ w.phase ≠ .trailer ∧ (punching w 32).punch.active = none ∧
         (punching w 32).punch.next = none ∧ (linked .direct true).punch.own = none) ∧
      -- SPOOL-CALL: no record, and one in each state
      (holding live (call .called .active)).answer.disp = none ∧
      (∀ d : DispState, (linked d true).answer.disp = some (disp d) ∧ (disp d).recorded = none ∧
        StoreSound (linked d true).store) ∧
      -- MOTOR-STOP, RING and MOTOR-START in each state of the motor
      (∀ m : Motor, ({ live with printer := { live.printer with motor := m } } : State).printer.motor = m) ∧
      -- a CREATE under the keep-call note
      ((({ Store.powerOn with note := some 7 } : Store).create ⟨.received, other, own, 7, false, false⟩).2 = some 0) ∧
      -- what reaches the matrix: a BREAK-SEEN, the CALL-END of its step, and a block that the settlement frees
      (let rs : List Raised := [⟨⟨5, none, none⟩, 16⟩, ⟨⟨14, none, none⟩, 16⟩, ⟨⟨3, some 7, none⟩, 17⟩]
       rs = ⟨⟨5, none, none⟩, 16⟩ :: rs.tail ∧ (∀ r ∈ rs.tail, r.event.code ≠ 5) ∧
         arrivals 16 rs 17 = [.event ⟨5, none, none⟩ 0, .event ⟨14, none, none⟩ 0, .room 1, .event ⟨3, some 7, none⟩ 0] ∧
         unseenOf [.room 1, .event ⟨3, some 7, none⟩ 0] = ⟨1, none⟩) ∧
      -- and a PAPER-OUT with the STORE-HIGH of its switch-over
      (let rs : List Raised := [⟨⟨6, none, none⟩, 17⟩, ⟨⟨13, none, none⟩, 16⟩]
       rs = [⟨⟨6, none, none⟩, 17⟩] ++ ⟨⟨13, none, none⟩, 16⟩ :: [] ∧
         arrivals 17 rs 16 = [.event ⟨6, none, none⟩ 0, .event ⟨13, none, none⟩ (-1)] ∧
         unseenOf (arrivals 17 rs 16) = ⟨-1, some false⟩ ∧
         unseenOf (arrivals 9 [⟨⟨7, none, none⟩, 9⟩] 9) = ⟨0, some true⟩) ∧
      (∀ a ∈ [Arrival.room 1], ∃ d, a = .room d) :=
  ⟨by decide, by decide, by decide, by decide, by decide, by decide, by decide,
    fun _ => ⟨rfl, rfl, stored_sound _ rfl (by decide)⟩, fun _ => rfl, by decide +kernel, by decide, by decide,
    fun a h => ⟨1, List.mem_singleton.1 h⟩⟩

/-- R172 to R174: of what reaches the matrix together, the first of each block may come first, but for a CALL-END that
follows a BREAK-SEEN; a change of the free count may come before or after another block's event, and the one that raises
STORE-HIGH comes with it. -/
theorem test_arrivals_that_may_come_first :
    takenFirst [] [.event ⟨5, none, none⟩ 0, .event ⟨14, none, none⟩ 0, .event ⟨3, some 7, none⟩ 0, .room 1] =
        [.event ⟨5, none, none⟩ 0, .event ⟨14, none, none⟩ 0] ∧
      takenFirst [] (arrivals 17 [⟨⟨6, none, none⟩, 17⟩] 16) = [.event ⟨6, none, none⟩ 0, .room (-1)] ∧
      takenFirst [] (arrivals 17 [⟨⟨6, none, none⟩, 17⟩, ⟨⟨13, none, none⟩, 16⟩] 16) =
        [.event ⟨6, none, none⟩ 0, .event ⟨13, none, none⟩ (-1)] := by decide

/-- R174, R175: what has not reached the matrix is tested as it was: STORE-ROOM with 17 blocks free, one of them freed in
the step, and PAPER with PAPER OUT asserted in the step, whose event 6 is still to come when event 13 is taken. -/
theorem test_unseen_changes :
    (let s : State := { live with store := { live.store with free := List.range 17 } }
     s.condSeen ⟨0, none⟩ 12 = true ∧ s.condSeen ⟨1, none⟩ 12 = false ∧ s.condSeen ⟨1, none⟩ 3 = s.condHolds 3) ∧
      (let s : State := { live with printer := { live.printer with paper := ⟨true, 0⟩ } }
       unseenOf [.event ⟨6, none, none⟩ 0] = ⟨0, some false⟩ ∧ s.condSeen ⟨0, some false⟩ 3 = true ∧
         s.condSeen ⟨0, some false⟩ 4 = false ∧ s.condSeen ⟨0, none⟩ 3 = false ∧ s.condSeen ⟨0, none⟩ 4 = true) := by
  decide

theorem wit_SelectHighEndsTransaction :
    live.port.txn = none ∧ (serviced opened).port.txn = some opened ∧ opened.effect = .none ∧
      (serviced { opened with effect := .clearError }).port.txn = some { opened with effect := .clearError } ∧
      (serviced { opened with effect := .setMask 127 }).port.txn = some { opened with effect := .setMask 127 } ∧
      (serviced { opened with effect := .clearSticky true false }).port.txn =
        some { opened with effect := .clearSticky true false } ∧
      (serviced { opened with effect := .reset }).port.txn = some { opened with effect := .reset } := by decide

theorem wit_PlainTransactionsAnswer :
    (serviced opened).port.txn = some opened ∧ opened.taken = false ∧ opened.early = false := by decide

theorem wit_LogAndDirectoryAnswer :
    (serviced opened).port.txn = some opened ∧ opened.taken = false ∧ opened.early = false ∧
      ((((holding (serviced opened) (call .called .active)).tracker.call.toList.map Call.log) ++ []).take 16)[
        (0 : Byte).toNat]? = some (record .called .message) ∧
      (serviced opened).tracker.log.length ≤ (0 : Byte).toNat ∧ 32 ≤ (32 : Byte).toNat ∧
      (serviced opened).store.entry (31 : Byte).toNat = none ∧
      (stored (entry .held .readyHeld 5)).entry (0 : Byte).toNat = some (entry .held .readyHeld 5) ∧
      (let s := serviced { opened with taken := true, response := [4] }
       let u : State := { s with loader := { s.loader with svc := true } }
       u.loader.svc = true ∧ u.port.txn = some { opened with taken := true, response := [4] } ∧
         ([4] : List Byte)[0]? = some 4 ∧ ([4] : List Byte).length ≤ 1) := by decide

theorem wit_TextReturnsCells :
    ∃ s : State, s.port.txn = some opened ∧ opened.taken = false ∧ opened.early = false ∧ (0 : Byte).toNat < 32 ∧
      s.store.entry (0 : Byte).toNat = some (entry .received .closed 65) ∧ (1 : BitVec 16).toNat < 65 ∧
        (64 : Byte).toNat ≤ 64 ∧ 65 ≤ (65 : BitVec 16).toNat ∧
          (Memory.read s.store.cells (cellAddr [0] 2)).good = false :=
  ⟨{ serviced opened with
      store := { stored (entry .received .closed 65) with cells := [(2, ⟨1, false, true⟩)] } }, by decide⟩

theorem wit_EntryCommands :
    ((serviced opened).port.txn = some opened ∧ opened.taken = false ∧ opened.early = false ∧
        (31 : Byte).toNat < 32 ∧ (serviced opened).store.entry (31 : Byte).toNat = none) ∧
      (∃ s : State, s.port.txn = some opened ∧ s.store.entry 0 = some (entry .prepared .sending 5)) ∧
      (∃ s : State, s.port.txn = some opened ∧ s.store.entry 0 = some (entry .received .closed 5) ∧
        s.printer.drain = some 0) ∧
      (∃ s : State, s.port.txn = some opened ∧
        s.store.entry 0 = some { entry .prepared .ready 5 with kept := true }) ∧
        ∃ s : State, s.port.txn = some opened ∧ s.loader.straps.keepPrinted = false ∧
          s.store.entry 0 = some { entry .received .closed 5 with kept := true, print := .printed } :=
  ⟨by decide, ⟨{ serviced opened with store := stored (entry .prepared .sending 5) }, by decide⟩,
    ⟨{ serviced opened with
        store := stored (entry .received .closed 5), printer := { live.printer with drain := some 0 } }, by decide⟩,
    ⟨{ serviced opened with store := stored { entry .prepared .ready 5 with kept := true } }, by decide⟩,
    { serviced opened with store := stored { entry .received .closed 5 with kept := true, print := .printed } },
    by decide⟩

theorem wit_RefusedTransactions :
    ((serviced opened).port.txn = some opened ∧ opened.taken = false ∧ 9 < (10 : Byte).toNat) ∧
      ((serviced { opened with early := true }).port.txn = some { opened with early := true } ∧
        ([7] : List Byte).length = paramCount 5) ∧
      31 < (32 : Byte).toNat ∧ live.port.txn = none ∧ (15 : Byte).toNat < 16 ∧ (31 : Byte).toNat < 32 ∧
      1 ≤ (64 : Byte).toNat ∧ (64 : Byte).toNat ≤ 64 ∧ 3 < (4 : Byte).toNat ∧
      (serviced { opened with taken := true }).port.txn = some { opened with taken := true } := by decide

end Sys2Proof.Tests
end

section
/-! The proof about the echo comparator (R10): what one sample does after the echo is compared, and how that leaves the
drive and the Sender. -/

namespace Sys2Proof.Machine

open Sys2Proof.Safety

/-! ### What follows the comparison keeps the drive and the watch -/

/-- The elements being driven are the same, and the drive state is kept or a break burst has begun from OFF. -/
structure Drives (l m : Liu) : Prop where
  elem : m.elem = l.elem
  elemIdx : m.elemIdx = l.elemIdx
  elems : m.elems = l.elems
  drive : m.drive = l.drive ∨ l.drive = .off ∧ m.drive = .burst

theorem Drives.refl (l : Liu) : Drives l l := ⟨rfl, rfl, rfl, .inl rfl⟩

theorem Drives.trans {l m n : Liu} (h : Drives l m) (k : Drives m n) : Drives l n where
  elem := k.elem.trans h.elem
  elemIdx := k.elemIdx.trans h.elemIdx
  elems := k.elems.trans h.elems
  drive := by
    have hd := h.drive
    have kd := k.drive
    grind

theorem Drives.of_sending {l m : Liu} (h : Drives l m) (d : l.drive = .sending) : m.drive = .sending := by
  rcases h.drive with e | ⟨e, _⟩
  · exact e.trans d
  · cases d.symm.trans e

theorem Drives.not_sending {l m : Liu} (h : Drives l m) (d : l.drive ≠ .sending) : m.drive ≠ .sending := by
  rcases h.drive with e | ⟨_, e⟩
  · rwa [e]
  · rw [e]; exact nofun

theorem burstOnly.drives {s t : State} (h : burstOnly s t) : Drives s.liu t.liu := by
  rcases h with e | ⟨off, -, -, -, e⟩
  · rw [e]; exact .refl _
  · rw [e]; exact ⟨rfl, rfl, rfl, .inr ⟨off, rfl⟩⟩

theorem Liu.count_drives (l : Liu) (x : Level) : Drives l (l.count x) := by
  unfold Liu.count
  split
  · exact ⟨rfl, rfl, rfl, .inl rfl⟩
  · split <;> exact ⟨rfl, rfl, rfl, .inl rfl⟩

theorem Liu.tickSample_drives (l : Liu) : Drives l l.tickSample := by
  unfold Liu.tickSample
  split <;> exact ⟨rfl, rfl, rfl, .inl rfl⟩

/-- The Sender keeps its phase, or its wait for a guard or for an answer has ended; and it keeps the phase in which it was
last stopped. So no watch begins, and none ends. -/
structure Waits (s t : State) : Prop where
  stopPhase : t.sender.stopPhase = s.sender.stopPhase
  phase : t.sender.phase = s.sender.phase ∨
    (s.sender.phase = .waitGuard ∨ s.sender.phase = .yielding) ∧ t.sender.phase = .idle

theorem Waits.refl (s : State) : Waits s s := ⟨rfl, .inl rfl⟩

theorem Waits.trans {s t u : State} (h : Waits s t) (k : Waits t u) : Waits s u where
  stopPhase := k.stopPhase.trans h.stopPhase
  phase := by
    have hp := h.phase
    have kp := k.phase
    grind

theorem Waits.of_sender {s t : State} (h : t.sender = s.sender) : Waits s t :=
  ⟨congrArg Sender.stopPhase h, .inl (congrArg Sender.phase h)⟩

/-- R52: a watch goes on. -/
theorem Waits.watching {s t : State} (h : Waits s t) (w : s.sender.phase = .watchLine) :
    t.sender.phase = .watchLine := by
  rcases h.phase with e | ⟨e | e, -⟩
  · exact e.trans w
  · cases w.symm.trans e
  · cases w.symm.trans e

/-- An operation that keeps the Sender. -/
theorem Waits.of_keeps {as : List Block} {s t : State} (k : keeps as s t)
    (d : as.contains .sender = false := by rfl) : Waits s t := .of_sender (k .sender (by simpa using d))

/-- A further operation that keeps the Sender. -/
theorem Waits.then_keeps {as : List Block} {s t u : State} (h : Waits s t) (k : keeps as t u)
    (d : as.contains .sender = false := by rfl) : Waits s u := h.trans (.of_keeps k d)

/-- A further operation that is done only under a condition. -/
theorem Waits.then_if {s t u : State} {c : Prop} [Decidable c] (h : Waits s t) (k : Waits t u) :
    Waits s (if c then u else t) := by
  split
  · exact h.trans k
  · exact h

/-- A further change of the Sender that is no change of its phases. -/
theorem Waits.then_setSender {s t : State} (h : Waits s t) {x : Sender}
    (stop : x.stopPhase = t.sender.stopPhase := by rfl) (phase : x.phase = t.sender.phase := by rfl) :
    Waits s (t.setSender x) := h.trans ⟨stop, .inl phase⟩

/-! ### The Sender at the end of a job, and where REST ends -/

theorem State.finishJob_waits {s : State} (h : s.sender.phase = .waitGuard ∨ s.sender.phase = .yielding)
    (r : JobResult) : Waits s (s.finishJob r) := by
  constructor
  · rw [s.finishJob_sender]
  · exact .inr ⟨h, by rw [s.finishJob_sender]⟩

/-- R55: a line fault leaves the Sender IDLE. -/
theorem State.senderFault_phase (s : State) : s.senderFault.sender.phase = .idle := by
  unfold State.senderFault
  split
  · assumption
  · rw [s.returnJob_sender]
  · rw [s.finishJob_sender]

theorem State.lapsePending_waits (s : State) : Waits s s.lapsePending := by
  unfold State.lapsePending
  split
  · exact .refl s
  · exact (Waits.refl s).then_setSender.then_keeps (State.jobEnd_keeps _ _ _)

theorem State.senderRestEnded_waits (s : State) : Waits s s.senderRestEnded := by
  refine s.lapsePending_waits.trans ?_
  unfold State.senderRestEnded
  generalize s.lapsePending = t
  dsimp only
  split
  case h_1 guard => exact (Waits.refl t).then_if (State.finishJob_waits (.inl guard) .lapsed)
  case h_2 yielding =>
    split
    · exact (Waits.refl t).then_setSender
    · exact .refl t
    · exact State.finishJob_waits (.inr yielding) .aborted
  case h_3 => exact .refl t

theorem State.restEnded_waits (s : State) : Waits s s.restEnded := by
  have sender := (Waits.of_keeps (s.setLiu_keeps { s.liu with rest := false })).trans (State.senderRestEnded_waits _)
  unfold State.restEnded
  exact (sender.then_if (.of_keeps (State.setListener_keeps _ _))).then_keeps (State.modCall_keeps _ _)

theorem State.restEnded_liu (s : State) : s.restEnded.liu = { s.liu with rest := false } := by
  have h : (s.setLiu { s.liu with rest := false }).senderRestEnded.liu = { s.liu with rest := false } :=
    State.senderRestEnded_keeps _ .liu (by decide)
  unfold State.restEnded
  refine (State.modCall_keeps _ _ .liu (by decide)).trans ?_
  split
  · exact h
  · exact h

/-! ### The Sender at the end of a call, and at what the Framer reports -/

theorem Sender.courteous_phases (x : Sender) (c : Call) (o : CallOutcome) :
    (x.courteous c o).stopPhase = x.stopPhase ∧ (x.courteous c o).phase = x.phase := by
  unfold Sender.courteous
  split <;> exact ⟨rfl, rfl⟩

/-- R51: the end of a call ends the yield of the job that it serves, and nothing else that the Sender does. -/
theorem CallEnded.waits {s t : State} {c : Call} {o : CallOutcome} (h : CallEnded s t c o) : Waits s t := by
  obtain ⟨stays, yields⟩ := h.sender
  obtain ⟨stop, phase⟩ := s.sender.courteous_phases c o
  by_cases y : s.sender.yieldsFor c
  · rw [Sender.yieldsFor] at y
    exact ⟨by rw [yields y]; exact stop, .inr ⟨.inr y.2.1, by rw [yields y]⟩⟩
  · exact ⟨by rw [stays y]; exact stop, .inl (by rw [stays y]; exact phase)⟩

theorem State.endCallR63_waits (s : State) : Waits s s.endCallR63 := by
  unfold State.endCallR63
  split
  · exact .refl s
  case h_2 c held => exact (s.endCall_ended c.r63 c held).waits

theorem State.outside_waits (s : State) : Waits s s.outside :=
  ((Waits.refl s).then_if s.endCallR63_waits).then_keeps (State.setTracker_keeps _ _)

theorem State.tieJob_waits (s : State) (serial : Nat) : Waits s (s.tieJob serial) := by
  unfold State.tieJob
  split
  · exact .refl s
  · dsimp only
    split
    · exact (Waits.refl s).then_setSender.then_keeps (State.setStore_keeps _ _)
    · exact (Waits.refl s).then_setSender

theorem State.openCall_waits (s : State) (role : Role) (origin : StationCode) (kind : CallKind) (dest : StationCode) :
    Waits s (s.openCall role origin kind dest) := by
  have opened (x : Tracker) (p : Punch) (a : Answer) : Waits s (((s.endCallR63.setTracker x).setPunch p).setAnswer a) :=
    ((s.endCallR63_waits.then_keeps (State.setTracker_keeps _ x)).then_keeps (State.setPunch_keeps _ p)).then_keeps
      (State.setAnswer_keeps _ a)
  unfold State.openCall
  dsimp only
  split
  · exact ((opened _ _ _).then_if (State.tieJob_waits _ _)).then_keeps (State.raise_keeps _ _ _)
  · exact (opened _ _ _).then_if (State.tieJob_waits _ _)

theorem State.openingHeader_waits (s : State) (origin : StationCode) (kind : CallKind) (dest : StationCode) :
    Waits s (s.openingHeader origin kind dest) := by
  unfold State.openingHeader
  split
  · exact s.openCall_waits _ _ _ _
  · exact s.outside_waits

theorem State.yieldAnswered_waits (s : State) : Waits s s.yieldAnswered :=
  (Waits.refl s).then_if (Waits.refl s).then_setSender

theorem State.fittingHeader_waits (s : State) (origin : StationCode) (kind : SendKind) (dest : StationCode) :
    Waits s (s.fittingHeader origin kind dest) := by
  have taken (f : Call → Call) (x : Tracker) : Waits s ((s.modCall f).setTracker x) :=
    (Waits.of_keeps (s.modCall_keeps f)).then_keeps (State.setTracker_keeps _ x)
  unfold State.fittingHeader
  exact ((taken _ _).trans (State.yieldAnswered_waits _)).then_if (.of_keeps (State.deliverHeader_keeps _ _ _))

theorem State.followingHeader_waits (s : State) (origin : StationCode) (kind : SendKind) (dest : StationCode) :
    Waits s (s.followingHeader origin kind dest) := by
  unfold State.followingHeader
  split
  · exact s.fittingHeader_waits _ _ _
  · exact s.outside_waits

theorem State.headerResult_waits (s : State) (h : Hdr) : Waits s (s.headerResult h) := by
  unfold State.headerResult
  refine Waits.trans (.of_keeps (s.setListener_keeps { s.listener with hdr := h })) ?_
  dsimp only
  split
  · exact .refl _
  · exact State.outside_waits _
  · exact State.openingHeader_waits _ _ _ _
  · exact State.openingHeader_waits _ _ _ _
  · exact (State.followingHeader_waits _ _ _ _).then_keeps (State.enterText_keeps _)

theorem State.character_waits (s : State) (c : Code) (err : Bool) : Waits s (s.character c err) := by
  unfold State.character
  split
  · split
    · exact Waits.then_if (.of_keeps (State.setListener_keeps _ _)) (State.headerResult_waits _ _)
    · exact .refl s
    · exact .of_keeps (s.earlyChar_keeps c err)
  · exact .of_keeps (s.textChar_keeps c err)
  all_goals exact .refl s

theorem State.report_waits (s : State) (r : Report) : Waits s (s.report r) := by
  cases r with
  | leadIn => exact .of_keeps s.leadIn_keeps
  | unframed =>
    exact (Waits.refl s).then_if ((Waits.of_keeps (s.setListener_keeps _)).trans (State.outside_waits _))
  | markElement => exact .of_keeps s.markElement_keeps
  | errorEvent => exact .of_keeps s.errorEvent_keeps
  | character c err d => exact Waits.trans (.of_keeps (s.trackDistortion_keeps d)) (State.character_waits _ c err)

theorem State.reports_waits (rs : List Report) (s : State) : Waits s (rs.foldl State.report s) := by
  induction rs generalizing s with
  | nil => exact .refl s
  | cons r rs ih => exact (s.report_waits r).trans (ih _)

theorem State.frameSample_waits (s : State) (x : Level) : Waits s (s.frameSample x) := by
  have taken (f : Framer) (g : Gauge) : Waits s ((s.setFramer f).setGauge g) :=
    (Waits.of_keeps (s.setFramer_keeps f)).then_keeps (State.setGauge_keeps _ g)
  exact (taken _ _).trans (State.reports_waits _ _)

theorem State.standDown_waits (s : State) : Waits s s.standDown := by
  unfold State.standDown
  exact (((Waits.refl s).then_if (s.frameSample_waits .z)).then_keeps (State.setFramer_keeps _ _)).then_keeps
    (State.setGauge_keeps _ _)

/-! ### One sample, in its parts -/

/-- R8, R9, R20 to R30: what a sample does once the echo is compared: the detectors, and then the Framer, take it. -/
def State.detectSample (s : State) (x : Level) : State :=
  let t := s.setLiu (s.liu.count x)
  let u := (if x != .z && t.liu.rest then t.restEnded else t).frameSample x
  u.setLiu u.liu.tickSample

/-- R14: the state once the first faulted sample has had its effects. -/
def State.faultTaken (s : State) : State := if s.liu.faultIn && !s.liu.faultLatch then s.lineFault else s

theorem State.sampleLine_eq (s : State) (rxP rxN : Bool) :
    s.sampleLine rxP rxN =
      let x := if s.faultTaken.liu.faultIn then .z else readLevel rxP rxN
      (s.faultTaken.driveSample x).detectSample x := rfl

theorem State.sampleLine_unfaulted {s : State} (h : s.liu.faultIn = false) (rxP rxN : Bool) :
    s.sampleLine rxP rxN = (s.driveSample (readLevel rxP rxN)).detectSample (readLevel rxP rxN) := by
  simp [State.sampleLine_eq, State.faultTaken, h]

theorem State.detectSample_waits (s : State) (x : Level) : Waits s (s.detectSample x) := by
  have counted := Waits.of_keeps (s.setLiu_keeps (s.liu.count x))
  unfold State.detectSample
  exact ((counted.then_if (State.restEnded_waits _)).trans (State.frameSample_waits _ x)).then_keeps
    (State.setLiu_keeps _ _)

theorem State.restEnded_drives (s : State) : Drives s.liu s.restEnded.liu := by
  rw [s.restEnded_liu]
  exact ⟨rfl, rfl, rfl, .inl rfl⟩

theorem State.detectSample_drives (s : State) (x : Level) : Drives s.liu (s.detectSample x).liu := by
  let t := s.setLiu (s.liu.count x)
  have counted : Drives s.liu t.liu := s.liu.count_drives x
  have detected : Drives s.liu (if x != .z && t.liu.rest then t.restEnded else t).liu := by
    split
    · exact counted.trans t.restEnded_drives
    · exact counted
  exact (detected.trans (State.frameSample_burst _ x).drives).trans (Liu.tickSample_drives _)

/-- R3: a SAMPLE, with the timebase running: the line's sample on the state as it is, but for the matrix, and then the
events raised, which leave the Sender and can begin a break burst. -/
theorem exec_sample {s : State} (h : s.liu.divisor.isSome = true) (rxP rxN : Bool) :
    ∃ u t : State, exec (.sample rxP rxN) s = .next t ∧ u.liu = s.liu ∧ u.sender = s.sender ∧
      Drives (u.sampleLine rxP rxN).liu t.liu ∧ Waits (u.sampleLine rxP rxN) t := by
  let u := s.setLinks { s.links with raised := [] }
  let v := u.sampleLine rxP rxN
  refine ⟨u, v.takeRaised s.store.free.length s.links.raised, ?_, rfl, rfl, (v.takeRaised_burst _ _).drives,
    .of_keeps (v.takeRaised_keeps _ _)⟩
  change stepWhen s.enabled _ s = _
  rw [stepWhen, show s.enabled = true from h]
  rfl

/-! ### The echo comparator (R10) -/

theorem readLevel_eq (rxP rxN : Bool) :
    readLevel rxP rxN = if rxP && !rxN then .p else if rxN && !rxP then .n else .z := by
  cases rxP <;> cases rxN <;> rfl

/-- R10: the level read differs, at sample 32 of an element or at sample 96 of a stop of two. -/
theorem Liu.mismatch_iff {l : Liu} {e : TxElem} (d : l.drive = .sending) (h : l.elem = some e) (x : Level) :
    l.mismatch x = true ↔ (l.elemIdx = 32 ∨ l.elemIdx = 96 ∧ e.len = 128) ∧ x ≠ e.level := by
  simp [Liu.mismatch, TxElem.compared, d, h]

/-- R10: in OFF and BURST nothing is compared. -/
theorem Liu.mismatch_not_sending {l : Liu} (d : l.drive ≠ .sending) (x : Level) : l.mismatch x = false := by
  simp [Liu.mismatch, d]

theorem SenderPhase.driving_of_mem {p : SenderPhase} (h : p ∈ [SenderPhase.lead, .header, .window, .text, .stopping]) :
    p.driving = true := by
  revert p; decide

@[simp] theorem State.collisionStop_liu (s : State) : s.collisionStop.liu = s.liu.stop := by
  unfold State.collisionStop
  dsimp only
  split <;> rfl

/-- R52: a Sender that was driving watches the line. -/
theorem State.collisionStop_sender {s : State} (h : s.sender.phase.driving = true) :
    s.collisionStop.sender.phase = .watchLine ∧ s.collisionStop.sender.stopPhase = s.sender.phase := by
  simp [State.collisionStop, h]

theorem State.driveSample_mismatch {s : State} {x : Level} (h : s.liu.mismatch x = true) :
    s.driveSample x = s.collisionStop := if_pos h

/-- R10: in SENDING, a sample that finds no mismatch moves the element on. -/
theorem State.driveSample_sending {s : State} {x : Level} (h : s.liu.mismatch x = false)
    (d : s.liu.drive = .sending) : (s.driveSample x).liu = { s.liu with elemIdx := s.liu.elemIdx + 1 } := by
  unfold State.driveSample
  rw [if_neg (by simp [h]), d]
  dsimp only
  split <;> rfl

/-- R10: in OFF and BURST a sample leaves the elements alone. -/
theorem State.driveSample_drives {s : State} (d : s.liu.drive ≠ .sending) (x : Level) :
    Drives s.liu (s.driveSample x).liu := by
  unfold State.driveSample
  rw [if_neg (by simp [Liu.mismatch_not_sending d])]
  cases e : s.liu.drive with
  | sending => exact absurd e d
  | off => dsimp only; split <;> exact .refl _
  | burst => dsimp only; split <;> exact ⟨rfl, rfl, rfl, .inl rfl⟩

theorem State.driveSample_waits {s : State} {x : Level} (h : s.liu.mismatch x = false) : Waits s (s.driveSample x) := by
  have moved (l : Liu) : Waits s (s.setLiu l) := .of_keeps (s.setLiu_keeps l)
  unfold State.driveSample
  rw [if_neg (by simp [h])]
  cases s.liu.drive with
  | off => exact (Waits.refl s).then_if (Waits.refl s).then_setSender
  | sending => exact (moved _).then_if (Waits.refl _).then_setSender
  | burst => exact (moved _).then_if (Waits.refl _).then_setSender

/-! ### Nothing driven in SENDING, and no watch -/

/-- The LIU is in OFF or BURST, and the Sender does not watch the line. -/
structure Uncompared (s : State) : Prop where
  drive : s.liu.drive ≠ .sending
  phase : s.sender.phase ≠ .watchLine

theorem Uncompared.next {s t : State} (h : Uncompared s) (d : Drives s.liu t.liu) (w : Waits s t) : Uncompared t where
  drive := d.not_sending h.drive
  phase := by
    rcases w.phase with e | ⟨_, e⟩
    · rw [e]; exact h.phase
    · rw [e]; exact nofun

/-- A further operation that keeps the LIU and the Sender. -/
theorem Uncompared.then_keeps {as : List Block} {s t : State} (h : Uncompared s) (k : keeps as s t)
    (liu : as.contains .liu = false := by rfl) (sender : as.contains .sender = false := by rfl) : Uncompared t :=
  h.next (burstOnly_keeps k liu).drives (.of_keeps k sender)

theorem State.senderFault_uncompared {s : State} (h : s.liu.drive ≠ .sending) : Uncompared s.senderFault where
  drive := by rwa [show s.senderFault.liu = s.liu from s.senderFault_keeps .liu (by decide)]
  phase := by rw [s.senderFault_phase]; exact nofun

/-- R14, R55: a line fault stops the sending, and leaves the Sender IDLE. -/
theorem State.lineFault_uncompared (s : State) : Uncompared s.lineFault := by
  have rested {t : State} (h : Uncompared t) : Uncompared (if t.liu.rest then t.restEnded else t) := by
    split
    · exact h.next t.restEnded_drives t.restEnded_waits
    · exact h
  have stood {t : State} (h : Uncompared t) : Uncompared t.standDown :=
    h.next t.standDown_burst.drives t.standDown_waits
  unfold State.lineFault
  refine (stood ((rested (State.senderFault_uncompared ?_)).then_keeps (State.listenerEnd_keeps _ false))).then_keeps
    (State.answerCut_keeps _)
  split
  · rw [show (State.endCall _ _).liu = _ from State.endCall_frame _ _ .liu (by decide)]
    exact nofun
  · exact nofun

theorem State.faultTaken_uncompared {s : State} (h : Uncompared s) : Uncompared s.faultTaken := by
  unfold State.faultTaken
  split
  · exact s.lineFault_uncompared
  · exact h

theorem State.driveSample_uncompared {s : State} (h : Uncompared s) (x : Level) : Uncompared (s.driveSample x) :=
  h.next (State.driveSample_drives h.drive x) (State.driveSample_waits (Liu.mismatch_not_sending h.drive x))

theorem State.sampleLine_uncompared {s : State} (h : Uncompared s) (rxP rxN : Bool) :
    Uncompared (s.sampleLine rxP rxN) := by
  rw [State.sampleLine_eq]
  exact (State.driveSample_uncompared (State.faultTaken_uncompared h) _).next (State.detectSample_drives _ _)
    (State.detectSample_waits _ _)

end Sys2Proof.Machine

namespace Sys2Proof.Safety

open Sys2Proof.Machine

/-- R10: a sample in SENDING that the echo comparison finds to differ. -/
theorem echo_mismatch_stops {s : State} {rxP rxN : Bool} (h : s.liu.mismatch (readLevel rxP rxN) = true)
    (clear : s.liu.faultIn = false) (timed : s.liu.divisor.isSome = true) :
    ∃ t, exec (.sample rxP rxN) s = .next t ∧ t.liu.drive ≠ .sending ∧ t.liu.elem = none ∧ t.liu.elems = [] ∧
      (s.sender.phase.driving = true → t.sender.phase = .watchLine ∧ t.sender.stopPhase = s.sender.phase) := by
  obtain ⟨u, t, next, liu, sender, drives, waits⟩ := exec_sample timed rxP rxN
  rw [← liu] at h clear
  rw [State.sampleLine_unfaulted clear, State.driveSample_mismatch h] at drives waits
  have d := (State.detectSample_drives _ _).trans drives
  have w := (State.detectSample_waits _ _).trans waits
  rw [State.collisionStop_liu] at d
  refine ⟨t, next, d.not_sending nofun, d.elem, d.elems, fun driving => ?_⟩
  rw [← sender] at driving ⊢
  obtain ⟨phase, stop⟩ := State.collisionStop_sender driving
  exact ⟨w.watching phase, w.stopPhase.trans stop⟩

/-- R10: a sample in SENDING at which the echo is not compared, or agrees. -/
theorem echo_match_drives_on {s : State} {rxP rxN : Bool} (h : s.liu.mismatch (readLevel rxP rxN) = false)
    (sending : s.liu.drive = .sending) (clear : s.liu.faultIn = false) (timed : s.liu.divisor.isSome = true) :
    ∃ t, exec (.sample rxP rxN) s = .next t ∧ t.liu.drive = .sending ∧ t.liu.elem = s.liu.elem ∧
      t.liu.elemIdx = s.liu.elemIdx + 1 ∧ t.liu.elems = s.liu.elems := by
  obtain ⟨u, t, next, liu, -, drives, -⟩ := exec_sample timed rxP rxN
  rw [← liu] at h clear sending ⊢
  rw [State.sampleLine_unfaulted clear] at drives
  have d := (State.detectSample_drives _ _).trans drives
  rw [State.driveSample_sending h sending] at d
  exact ⟨t, next, d.of_sending sending, d.elem, d.elemIdx, d.elems⟩

/-- Settles O13: the comparison comes first in the sample, and what follows it leaves the drive and the watch to it. -/
theorem echoMismatchStopsSending : Obligations.EchoMismatchStopsSending := by
  unfold Obligations.EchoMismatchStopsSending
  constructor
  · intro rxP rxN s e timed clear sending elem
    dsimp only
    rw [← readLevel_eq]
    have compared := Liu.mismatch_iff sending elem (readLevel rxP rxN)
    split
    case isTrue differs =>
      obtain ⟨t, next, drive, noElem, noElems, watch⟩ := echo_mismatch_stops (compared.2 differs) clear timed
      exact ⟨t, next, drive, noElem, noElems, fun h => watch (SenderPhase.driving_of_mem h)⟩
    case isFalse agrees =>
      have matched := Bool.eq_false_iff.2 (mt compared.1 agrees)
      obtain ⟨t, next, drive, sameElem, idx, elems⟩ := echo_match_drives_on matched sending clear timed
      exact ⟨t, next, drive, sameElem.trans elem, idx, elems⟩
  · intro rxP rxN s timed drive phase
    obtain ⟨u, t, next, liu, sender, drives, waits⟩ := exec_sample timed rxP rxN
    have start : Uncompared u := ⟨by rwa [liu], by rwa [sender]⟩
    obtain ⟨notSending, notWatching⟩ := (State.sampleLine_uncompared start rxP rxN).next drives waits
    exact ⟨t, next, notSending, notWatching⟩

end Sys2Proof.Safety
end

section
/-! The proof about the conditions of the link table (R175): the rows that read an input, and the rows that the table
makes of others. -/

namespace Sys2Proof.Machine

/-! ### What the conditions read -/

/-- R123: there is tape while neither tape input is asserted. -/
theorem Punch.tape_iff (p : Punch) : p.tape = true ↔ p.low.on = false ∧ p.out.on = false := by
  simp [Punch.tape]

/-- R37: LQ is GOOD while neither flag is set; the coarse flag alone makes it POOR, and the fine flag FAIR. -/
theorem Quality.lq_eq_good_iff (q : Quality) : q.lq = .good ↔ q.fine.flag = false ∧ q.coarse.flag = false := by
  unfold Quality.lq
  cases q.coarse.flag
  case true => simp
  case false => cases q.fine.flag <;> simp

/-! ### R175: the rows that read one block -/

theorem State.condHolds_unattended (s : State) : s.condHolds 2 = true ↔ s.kbd.attended.pos = false :=
  .of_eq (Bool.not_eq_true' _)

theorem State.condHolds_paper (s : State) : s.condHolds 3 = true ↔ s.printer.paper.on = false :=
  .of_eq (Bool.not_eq_true' _)

theorem State.condHolds_noPaper (s : State) : s.condHolds 4 = true ↔ s.printer.paper.on = true := .rfl

theorem State.condHolds_tape (s : State) : s.condHolds 5 = true ↔ s.punch.low.on = false ∧ s.punch.out.on = false :=
  s.punch.tape_iff

theorem State.condHolds_qualityGood (s : State) :
    s.condHolds 7 = true ↔ s.quality.fine.flag = false ∧ s.quality.coarse.flag = false :=
  decide_eq_true_iff.trans s.quality.lq_eq_good_iff

theorem State.condHolds_storeRoom (s : State) : s.condHolds 12 = true ↔ 16 < s.store.free.length :=
  decide_eq_true_iff

/-! ### R175: the rows made of other rows -/

theorem State.condHolds_noTape (s : State) : s.condHolds 6 = true ↔ ¬s.condHolds 5 = true :=
  (Iff.of_eq (Bool.not_eq_true' _)).trans Bool.eq_false_iff

theorem State.condHolds_qualityNotGood (s : State) : s.condHolds 8 = true ↔ ¬s.condHolds 7 = true :=
  bne_iff_ne.trans (not_congr decide_eq_true_iff).symm

theorem State.condHolds_unattendedAndPaper (s : State) :
    s.condHolds 9 = true ↔ s.condHolds 2 = true ∧ s.condHolds 3 = true :=
  Bool.and_eq_true_iff

theorem State.condHolds_unattendedAndTape (s : State) :
    s.condHolds 10 = true ↔ s.condHolds 2 = true ∧ s.condHolds 5 = true :=
  Bool.and_eq_true_iff

theorem State.condHolds_paperAndQualityGood (s : State) :
    s.condHolds 11 = true ↔ s.condHolds 3 = true ∧ s.condHolds 7 = true :=
  Bool.and_eq_true_iff

theorem State.condHolds_noPaperOrNotGood (s : State) :
    s.condHolds 13 = true ↔ s.condHolds 4 = true ∨ s.condHolds 8 = true :=
  Bool.or_eq_true_iff

end Sys2Proof.Machine

namespace Sys2Proof.Safety

open Sys2Proof.Machine

/-- Settles O53: a row made of other rows is taken back to them, and each row left reads its block. -/
theorem linkConditionsRead : Obligations.LinkConditionsRead := by
  unfold Obligations.LinkConditionsRead
  intro s tape good
  have noTape : s.condHolds 6 = true ↔ ¬tape := s.condHolds_noTape.trans (not_congr s.condHolds_tape)
  have notGood : s.condHolds 8 = true ↔ ¬good := s.condHolds_qualityNotGood.trans (not_congr s.condHolds_qualityGood)
  have unattendedPaper := s.condHolds_unattendedAndPaper.trans (and_congr s.condHolds_unattended s.condHolds_paper)
  have unattendedTape := s.condHolds_unattendedAndTape.trans (and_congr s.condHolds_unattended s.condHolds_tape)
  have paperGood := s.condHolds_paperAndQualityGood.trans (and_congr s.condHolds_paper s.condHolds_qualityGood)
  have noPaperOrNotGood := s.condHolds_noPaperOrNotGood.trans (or_congr s.condHolds_noPaper notGood)
  exact ⟨rfl, .rfl, s.condHolds_unattended, s.condHolds_paper, s.condHolds_noPaper, s.condHolds_tape, noTape,
    s.condHolds_qualityGood, notGood, unattendedPaper, unattendedTape, paperGood, s.condHolds_storeRoom,
    noPaperOrNotGood, rfl, rfl⟩

end Sys2Proof.Safety
end

section
/-! The proof about an error event (R30, R31, R33) and the latched ERROR flag (R190): what sets it, that the rest of the
station leaves it set, and what takes it back. -/

namespace Sys2Proof.Machine

open Sys2Proof.Safety

/-! ### A latched flag stands -/

/-- R190: the ERROR flag, where it is latched, is still latched. -/
def FlagStands (s t : State) : Prop := s.port.errFlag = true → t.port.errFlag = true

theorem FlagStands.refl (s : State) : FlagStands s s := id

theorem FlagStands.trans {s t u : State} (h : FlagStands s t) (k : FlagStands t u) : FlagStands s u := k ∘ h

theorem FlagStands.of_port {s t : State} (h : t.port = s.port) : FlagStands s t := fun flag => h ▸ flag

theorem FlagStands.of_keeps {as : List Block} {s t : State} (k : keeps as s t) (d : Block.port ∉ as := by decide) :
    FlagStands s t := .of_port (k .port d)

theorem FlagStands.then_keeps {as : List Block} {s t u : State} (h : FlagStands s t) (k : keeps as t u)
    (d : Block.port ∉ as := by decide) : FlagStands s u := h.trans (.of_keeps k d)

theorem FlagStands.then_if {s t u : State} {c : Prop} [Decidable c] (h : FlagStands s t) (k : FlagStands t u) :
    FlagStands s (if c then u else t) := by
  split
  · exact h.trans k
  · exact h

/-- A step that may be due. -/
theorem FlagStands.due {d : Bool} {f : State → State} {s t : State} (h : stepWhen d f s = .next t)
    (k : FlagStands s (f s)) : FlagStands s t := by
  cases h
  exact (FlagStands.refl s).then_if k

/-- A step that may be due, and the events that it raises. -/
theorem FlagStands.events {d : Bool} {f : State → State} {s t : State}
    (h : stepWhen d (State.thenEvents f) s = .next t) (k : ∀ u, FlagStands u (f u)) : FlagStands s t :=
  .due h (((FlagStands.of_keeps (s.setLinks_keeps _)).trans (k _)).then_keeps (State.takeRaised_keeps _ _ _))

/-! ### The line sets the flag, and never takes it back -/

/-- R30, R190: an error event at the service port. -/
theorem State.errorEvent_errFlag (s : State) : s.errorEvent.port.errFlag = true :=
  congrArg Port.errFlag (State.trackError_keeps _ .port (by decide))

/-- R30: an error event at the Quality Monitor. -/
theorem State.errorEvent_quality (s : State) : s.errorEvent.quality = s.quality.event :=
  State.trackError_keeps _ .quality (by decide)

theorem State.report_flagStands (s : State) (r : Report) : FlagStands s (s.report r) := by
  cases r with
  | leadIn => exact .of_keeps s.leadIn_keeps
  | unframed => exact .of_keeps s.unframed_keeps
  | markElement => exact .of_keeps s.markElement_keeps
  | errorEvent => exact fun _ => s.errorEvent_errFlag
  | character c err d =>
    exact (FlagStands.of_keeps (s.trackDistortion_keeps d)).then_keeps (State.character_keeps _ c err)

theorem State.reports_flagStands (rs : List Report) (s : State) : FlagStands s (rs.foldl State.report s) := by
  induction rs generalizing s with
  | nil => exact .refl s
  | cons r rs ih => exact (s.report_flagStands r).trans (ih _)

theorem State.frameSample_flagStands (s : State) (x : Level) : FlagStands s (s.frameSample x) :=
  ((FlagStands.of_keeps (s.setFramer_keeps _)).then_keeps (State.setGauge_keeps _ _)).trans
    (State.reports_flagStands _ _)

theorem State.standDown_flagStands (s : State) : FlagStands s s.standDown :=
  (((FlagStands.refl s).then_if (s.frameSample_flagStands .z)).then_keeps (State.setFramer_keeps _ _)).then_keeps
    (State.setGauge_keeps _ _)

theorem State.lineFault_flagStands (s : State) : FlagStands s s.lineFault := by
  have cleared (t : State) : FlagStands t t.senderFault := .of_keeps t.senderFault_keeps
  have rested (t : State) : FlagStands t (if t.liu.rest then t.restEnded else t) :=
    (FlagStands.refl t).then_if (.of_keeps t.restEnded_keeps)
  have ended (t : State) : FlagStands t (t.listenerEnd false) := .of_keeps (t.listenerEnd_keeps false)
  have stood (t : State) : FlagStands t t.standDown.answerCut :=
    t.standDown_flagStands.then_keeps (State.answerCut_keeps _)
  unfold State.lineFault
  refine FlagStands.trans ?_ ((cleared _).trans ((rested _).trans ((ended _).trans (stood _))))
  split
  · exact (FlagStands.of_keeps (s.setLiu_keeps _)).then_keeps (State.endCall_keeps _ _)
  · exact .of_keeps (s.setLiu_keeps _)

theorem State.detectSample_flagStands (s : State) (x : Level) : FlagStands s (s.detectSample x) :=
  (((FlagStands.of_keeps (s.setLiu_keeps _)).then_if (.of_keeps (State.restEnded_keeps _))).trans
    (State.frameSample_flagStands _ x)).then_keeps (State.setLiu_keeps _ _)

theorem State.sampleLine_flagStands (s : State) (rxP rxN : Bool) : FlagStands s (s.sampleLine rxP rxN) := by
  rw [State.sampleLine_eq]
  exact (((FlagStands.refl s).then_if s.lineFault_flagStands).then_keeps (State.driveSample_keeps _ _)).trans
    (State.detectSample_flagStands _ _)

/-! ### A transaction leaves the flag to its end -/

/-- R190: what a transaction holds is beside the flag. -/
theorem State.putTxn_errFlag (s : State) (x : Txn) : (s.putTxn x).port.errFlag = s.port.errFlag := rfl

theorem FlagStands.then_putTxn {s t : State} (h : FlagStands s t) (x : Txn) : FlagStands s (t.putTxn x) :=
  fun flag => (t.putTxn_errFlag x).trans (h flag)

/-- R189, R192: a command that is taken or refused. -/
theorem State.command_flagStands {s : State} (ok : Bool) {f : Txn → State} (k : ∀ x, FlagStands s (f x)) :
    FlagStands s (s.command ok f) := by
  unfold State.command
  split
  · exact .refl s
  · split
    · exact (FlagStands.refl s).then_putTxn _
    · exact k _

/-- A command that changes nothing but the transaction. -/
theorem State.answer_flagStands (s : State) (ok : Bool) (f : Txn → Txn) :
    FlagStands s (s.command ok fun x => s.putTxn (f x)) :=
  State.command_flagStands ok fun _ => (FlagStands.refl s).then_putTxn _

/-- R148: a command that changes an entry. -/
theorem State.portEntry_flagStands {s : State} (idx : Byte) {r : State × Byte} (h : FlagStands s r.1) :
    FlagStands s (s.portEntry idx r) :=
  State.command_flagStands _ fun _ => h.then_putTxn _

theorem State.portText_flagStands (s : State) (idx : Byte) (off : BitVec 16) (count : Byte) :
    FlagStands s (s.portText idx off count) :=
  State.command_flagStands _ fun _ => (FlagStands.of_keeps (s.setStore_keeps _)).then_putTxn _

theorem State.portNak_flagStands (s : State) (cmd : Byte) (ps : List Byte) : FlagStands s (s.portNak cmd ps) := by
  unfold State.portNak
  split
  · exact .refl s
  · exact (FlagStands.refl s).then_if ((FlagStands.refl s).then_putTxn _)

/-- R189: select low. -/
theorem State.selectFalls_flagStands (s : State) : FlagStands s s.selectFalls := by
  unfold State.selectFalls
  split
  · exact FlagStands.trans (t := s.setPort { s.port with selectLow := true, txn := some _ }) id
      (.of_keeps (State.wake_keeps _))
  · exact id

/-- R190, R194: at its end a transaction takes the flag back as RESET, or as a STATUS that has shown all error events. -/
theorem State.txnEnd_flag {s : State} (flag : s.port.errFlag = true) (errSince : Bool) (e : TxnEffect) :
    (s.txnEnd errSince e).port.errFlag = true ∨ e = .reset ∨ e = .clearError ∧ errSince = false := by
  cases e with
  | clearError =>
    cases errSince with
    | true => exact .inl (congrArg (· && true) flag)
    | false => exact .inr (.inr ⟨rfl, rfl⟩)
  | reset => exact .inr (.inl rfl)
  | none => exact .inl flag
  | clearSticky f c => exact .inl flag
  | setMask m => exact .inl flag

/-- R189, R190: select high. -/
theorem State.selectRises_flag {s : State} (flag : s.port.errFlag = true) :
    s.selectRises.port.errFlag = true ∨
      ∃ x, s.port.txn = some x ∧ (x.effect = .reset ∨ x.effect = .clearError ∧ x.errSince = false) := by
  unfold State.selectRises
  cases h : s.port.txn with
  | none => exact .inl flag
  | some x =>
    have ended := State.txnEnd_flag (s := s.setPort { s.port with selectLow := false, txn := none }) flag x.errSince
      x.effect
    exact ended.imp_right fun taken => ⟨x, rfl, taken⟩

/-! ### Every command but a reset and the end of a transaction -/

/-- R190: the flag stands at every command but a reset and the end of a transaction. -/
theorem exec_flagStands {c : Instr} {s t : State} (h : exec c s = .next t) (power : c ≠ .powerOn)
    (pin : c ≠ .resetPinAsserted) (select : c ≠ .selectHigh) : FlagStands s t := by
  unfold exec at h
  cases c with
  | powerOn => exact absurd rfl power
  | resetPinAsserted => exact absurd rfl pin
  | selectHigh => exact absurd rfl select
  -- start-up
  | resetRelease st => exact .due h (.of_keeps (s.release_keeps st))
  | configReadDone img => exact .due h (.of_keeps (s.configRead_keeps img))
  | configRetryTimeout => exact .due h (.of_keeps (s.setLoader_keeps _))
  | configFlashToggle => exact .due h (.of_keeps (s.setLoader_keeps _))
  -- the line
  | sample rxP rxN => exact .events h fun u => u.sampleLine_flagStands rxP rxN
  | restRecognised => exact .events h fun u => .of_keeps u.restRecognised_keeps
  | breakSeen => exact .events h fun u => .of_keeps u.breakSeen_keeps
  | burstEnd => exact .due h (.of_keeps (s.setLiu_keeps _))
  | lineFaultAsserted =>
    exact .events h fun u => (FlagStands.of_keeps (u.setLiu_keeps _)).then_if (State.lineFault_flagStands _)
  | lineFaultCleared => cases h; exact .of_keeps (s.setLiu_keeps _)
  | localLoopEnded => exact .due h (.of_keeps (s.setLiu_keeps _))
  | elementTick => exact .due h (.of_keeps s.elementTick_keeps)
  | integratorDecrement w => exact .due h (.of_keeps (s.setQuality_keeps _))
  | integratorFlagChange => exact .events h fun u => .of_keeps u.flagChange_keeps
  | errorLampTimeout => exact .due h (.of_keeps (s.setQuality_keeps _))
  -- the Sender and the held call
  | refusalPoint => exact .due h (.of_keeps s.giveRefusalPoint_keeps)
  | windowEnd => exact .events h fun u => .of_keeps u.giveWindowEnd_keeps
  | holdLimitExpired => exact .events h fun u => .of_keeps u.endCallR63_keeps
  | slotExamine => exact .due h (.of_keeps s.takeJob_keeps)
  | guardReached => exact .events h fun u => .of_keeps u.askStart_keeps
  | elementEnd => exact .events h fun u => .of_keeps u.elementEnd_keeps
  | holdTimeout => exact .due h (.of_keeps s.holdTimeout_keeps)
  | noAnswerBack => exact .due h (.of_keeps (s.modLog_keeps _))
  | obligationLapse =>
    refine .events h fun u => ?_
    split
    · exact .of_keeps (u.finishJob_keeps _)
    · exact .of_keeps u.lapsePending_keeps
  | watchLineEnd => exact .events h fun u => .of_keeps u.classifyWatch_keeps
  -- the tick and the keyboard
  | scanRow i => cases h; exact .of_keeps (s.tick_keeps i)
  | keyDown p => exact .events h fun u => .of_keeps (u.keyDown_keeps p)
  | keyUp k => exact .due h (.of_keeps (s.setKbd_keeps _))
  | callKey => exact .due h (.of_keeps (s.setKbd_keeps _))
  | collectKey => exact .due h (.of_keeps (s.setKbd_keeps _))
  | endKey => exact .due h ((FlagStands.of_keeps (s.fnDown_keeps _)).then_keeps (State.endKey_keeps _))
  | breakKey =>
    exact .events h fun u => (FlagStands.of_keeps (u.fnDown_keeps _)).then_keeps (State.breakKey_keeps _)
  | hereIs => exact .due h ((FlagStands.of_keeps (s.fnDown_keeps _)).then_keeps (State.hereIs_keeps _))
  | cancelKey => exact .due h ((FlagStands.of_keeps (s.fnDown_keeps _)).then_keeps (State.cancelKey_keeps _))
  | modeChange => exact .due h (.of_keeps s.modeChange_keeps)
  | punchSwitchChange => exact .due h (.of_keeps s.punchChange_keeps)
  | attendedChange => exact .due h (.of_keeps (s.setKbd_keeps _))
  | lockTimerExpired => exact .due h (.of_keeps (s.setKbd_keeps _))
  | prepareEntryTaken => exact .events h fun u => .of_keeps u.takePrepare_keeps
  | watchEntered => exact .due h (.of_keeps s.enterWatch_keeps)
  -- the printer
  | localGrant => exact .due h (.of_keeps (s.setPrinter_keeps _))
  | localEntryTaken => exact .due h (.of_keeps s.takeLocalEntry_keeps)
  | localIdleTimeout => exact .due h (.of_keeps (s.setPrinter_keeps _))
  | drainGrant => exact .due h (.of_keeps s.grantDrain_keeps)
  | drainRead => exact .due h (.of_keeps s.drainRead_keeps)
  | formCommand => exact .due h ((FlagStands.of_keeps (s.setPrinter_keeps _)).then_keeps (State.judgePrint_keeps _))
  | printDone => exact .due h ((FlagStands.of_keeps (s.setPrinter_keeps _)).then_keeps (State.judgePrint_keeps _))
  | paperOut => exact .events h fun u => .of_keeps u.paperOut_keeps
  | paperBack => exact .events h fun u => .of_keeps u.paperBack_keeps
  | faultAsserted => exact .events h fun u => .of_keeps u.faultAsserted_keeps
  | faultCleared => exact .due h (.of_keeps (s.setPrinter_keeps _))
  | atSpeed => exact .due h (.of_keeps (s.setPrinter_keeps _))
  | atSpeedLost => exact .events h fun u => .of_keeps u.speedLost_keeps
  | motorStartTimeout => exact .events h fun u => .of_keeps u.startTimeout_keeps
  | runOnExpired => exact .due h (.of_keeps (s.setPrinter_keeps _))
  | stopRequestMet => exact .due h (.of_keeps (s.setPrinter_keeps _))
  -- the punch, the retry timers and the alarm
  | keyboardIdleTimeout => exact .due h (.of_keeps (s.setPunch_keeps _))
  | punchDone => cases h; exact .of_keeps (s.setPunch_keeps _)
  | tapeLow => exact .events h fun u => (FlagStands.of_keeps (u.setPunch_keeps _)).then_keeps (State.raise_keeps _ _ _)
  | tapeLowCleared => exact .due h (.of_keeps (s.setPunch_keeps _))
  | tapeOut => exact .events h fun u => .of_keeps u.tapeOut_keeps
  | tapeOutCleared => exact .due h (.of_keeps (s.setPunch_keeps _))
  | retryTimerExpired i => exact .due h ((FlagStands.of_keeps (s.setStore_keeps _)).then_keeps (State.wake_keeps _))
  | alarmPulseEnd => exact .due h (.of_keeps (s.setLinks_keeps _))
  -- the service port
  | selectLow => cases h; exact s.selectFalls_flagStands
  | svcStatus => cases h; exact s.answer_flagStands _ _
  | svcAlertMask param => cases h; exact s.answer_flagStands _ _
  | svcQuality => cases h; exact s.answer_flagStands _ _
  | svcLog n => cases h; exact s.answer_flagStands _ _
  | svcDirectory idx => cases h; exact s.answer_flagStands _ _
  | svcText idx off count => cases h; exact s.portText_flagStands idx off count
  | svcIdent => cases h; exact s.answer_flagStands _ _
  | svcDelete idx => cases h; exact State.portEntry_flagStands idx (.of_keeps (s.deleteEntry_keeps _))
  | svcKeep idx => cases h; exact State.portEntry_flagStands idx (.of_keeps (s.keepEntry_keeps _))
  | svcRelease idx => cases h; exact State.portEntry_flagStands idx (.of_keeps (s.releaseEntry_keeps _))
  | svcReset => cases h; exact s.answer_flagStands _ _
  | svcNak cmd ps => cases h; exact s.portNak_flagStands cmd ps

/-! ### Resets -/

/-- R188, R194: the command begins a reset of the Quality Monitor and of the port: power-on, the RESET pin once power is
up (log 8), or the end of a RESET transaction. -/
def BeginsReset (c : Instr) (s : State) : Prop :=
  c = .powerOn ∨ (c = .resetPinAsserted ∧ ¬(s.loader.phase = .inReset ∧ s.loader.cause = .power)) ∨
    (c = .selectHigh ∧ ∃ x, s.port.txn = some x ∧ x.effect = .reset)

theorem State.resetPin_poweringUp {s : State} (h : s.loader.phase = .inReset ∧ s.loader.cause = .power) :
    s.resetPin = s := by simp [State.resetPin, h]

theorem State.resetPin_powered {s : State} (h : ¬(s.loader.phase = .inReset ∧ s.loader.cause = .power)) :
    s.resetPin = s.beginReset .pin := by simp [State.resetPin, h]

/-- R32, R191: a reset leaves the ERROR lamp dark and the flag clear. -/
theorem BeginsReset.clears {c : Instr} {s t : State} (r : BeginsReset c s) (h : exec c s = .next t) :
    t.quality.errLamp = none ∧ t.port.errFlag = false := by
  obtain rfl | ⟨rfl, powered⟩ | ⟨rfl, x, txn, effect⟩ := r
  · cases h
    exact ⟨rfl, rfl⟩
  · cases h
    rw [State.resetPin_powered powered]
    exact ⟨rfl, rfl⟩
  · cases h
    simp only [State.selectRises, txn, effect]
    exact ⟨rfl, rfl⟩

/-- R190: the flag stands until a reset, or the end of a STATUS that has shown it. -/
theorem exec_flag {c : Instr} {s t : State} (h : exec c s = .next t) (flag : s.port.errFlag = true)
    (kept : ¬BeginsReset c s) :
    t.port.errFlag = true ∨
      (c = .selectHigh ∧ ∃ x, s.port.txn = some x ∧ x.effect = .clearError ∧ x.errSince = false) := by
  by_cases power : c = .powerOn
  · exact absurd (.inl power) kept
  by_cases pin : c = .resetPinAsserted
  · subst pin
    cases h
    have poweringUp := not_not.1 fun powered => kept (.inr (.inl ⟨rfl, powered⟩))
    exact .inl ((congrArg (·.port.errFlag) (State.resetPin_poweringUp poweringUp)).trans flag)
  by_cases select : c = .selectHigh
  · subst select
    cases h
    obtain stands | ⟨x, txn, effect | shown⟩ := State.selectRises_flag flag
    · exact .inl stands
    · exact absurd (.inr (.inr ⟨rfl, x, txn, effect⟩)) kept
    · exact .inr ⟨rfl, x, txn, shown⟩
  · exact .inl (exec_flagStands h power pin select flag)

/-! ### The ERROR lamp (R31) -/

/-- R31, R183: the lamp is a lamp only with the SVC latch clear. -/
theorem State.errorLamp_iff (s : State) : s.errorLamp = true ↔ s.loader.svc = false ∧ s.quality.errLamp ≠ none := by
  simp [State.errorLamp, Option.isSome_iff_ne_none]

/-- R31: the last tick has been counted. -/
theorem exec_errorLampTimeout {s : State} (h : s.quality.errLamp = some 0) :
    exec .errorLampTimeout s = .next { s with quality := { s.quality with errLamp := none } } := by
  change execErrorLampTimeout s = _
  exact stepWhen_due _ s (decide_eq_true h)

/-- R1, R31: a housekeeping tick counts the lamp down. -/
theorem State.tick_errLamp {s : State} (i : TickInputs) (h : s.loader.phase ≠ .inReset) :
    (s.tick i).quality.errLamp = s.quality.errLamp.map (· - 1) := by
  have scanned := State.tickScan_keeps ((s.tickLoader.tickTimers i).tickLocal.tickWatch) i s.kbd.scanWait .quality
    (by decide)
  have watched := State.tickWatch_keeps (s.tickLoader.tickTimers i).tickLocal .quality (by decide)
  have printed := State.tickLocal_keeps (s.tickLoader.tickTimers i) .quality (by decide)
  rw [State.tick, if_neg h]
  exact congrArg Quality.errLamp (scanned.trans (watched.trans printed))

end Sys2Proof.Machine

namespace Sys2Proof.Safety

open Sys2Proof.Machine

/-- Settles O17: the operations on the counts and the lamp are read off, and the flag is followed through every command:
only a reset and the end of a STATUS take it back. -/
theorem errorEventCounts : Obligations.ErrorEventCounts := by
  unfold Obligations.ErrorEventCounts
  refine ⟨fun q => ⟨rfl, rfl, rfl⟩, fun s => ?_, fun c s t h => ⟨fun r => BeginsReset.clears r h, exec_flag h⟩⟩
  exact ⟨s.errorEvent_quality, s.errorEvent_errFlag, s.errorLamp_iff, exec_errorLampTimeout,
    fun i running => ⟨s.tick i, rfl, State.tick_errLamp i running⟩⟩

end Sys2Proof.Safety
end
